-- ==== Sys2Proof/Word.lean ====
section
/-! DEFINITION. The word types of the Ouvale LM9 (R2, R24): bytes, 32-bit words, 64-bit values, lane masks. -/

namespace Sys2Proof

/-- One byte. -/
abbrev Byte := BitVec 8

/-- One lane's 32-bit register word. -/
abbrev Word := BitVec 32

/-- A 64-bit value: an address pair, an instruction word, a clause header. -/
abbrev DWord := BitVec 64

/-- A set of lanes of one warp: bit `i` is lane `i` (R33). -/
abbrev Mask := BitVec 32

/-- Lane numbers of a warp, ascending (R33). -/
def lanes : List Nat :=
  [0, 1, 2, 3, 4, 5, 6, 7, 8, 9, 10, 11, 12, 13, 14, 15,
   16, 17, 18, 19, 20, 21, 22, 23, 24, 25, 26, 27, 28, 29, 30, 31]

/-- A warp: the team it belongs to (a number the model gives each team) and its index in it (R33). -/
structure WarpId where
  team : Nat
  widx : Nat
  deriving DecidableEq, Repr

end Sys2Proof
end

