-- ==== Sys2Proof/Config.lean ====
section
/-! DEFINITION. What an implementation fixes, and the free values: constants without a body, which no proof can
evaluate (each named in the assumption log). -/

namespace Sys2Proof.Config

/-! ### Constants the spec gives -/

/-- Cores, clusters and slices of the package (R220, R124). -/
def cores : Nat := 512
def clusters : Nat := 128
def slices : Nat := 128
/-- HBM stacks and bytes of a stack (R123). -/
def stackCount : Nat := 12
def stackBytes : Nat := 2 ^ 36
/-- Frames of a core's scratch and bytes of a page (R105, R109). -/
def frames : Nat := 192
def pageBytes : Nat := 2048
/-- Window entries of a warp and of a core (R67). -/
def warpWindow : Nat := 128
def coreWindow : Nat := 1024
/-- Physical registers of a core outside the handler reserve (R90) and headroom of a warp (R68). -/
def coreRegs : Nat := 3840
def headroom : Nat := 64

/-! ### Constants each implementation fixes (log 15, log 11) -/

/-- Highest launch-record version, function-table version and host queue format of the capability list. -/
def recordVersion : Nat := 1
def functionTables : Nat := 2
def queueFormat : Nat := 1
/-- The highest link protocol version that this package offers (R354). -/
def linkProtocol : Nat := 1
/-- Sets of a slice and ways of a set: 2,048 sets of 16 ways (log 11). -/
def l2Sets : Nat := 2048
def l2Ways : Nat := 16
/-- HBM capacity of the package in GB, as the capability list reports it: 12 stacks of 64 GiB. -/
def hbmGB : Nat := 768

/-! ### Free values -/

/-- Cycles a step of the model takes (log 1). -/
opaque stepCycles : Nat → Nat
/-- Which entry a full translation buffer drops (log 12). -/
opaque tlbVictim : Nat → Nat
/-- The load the leaf reports for a spine of a plane (log 13). -/
opaque spineLoad : Nat → Nat → Nat → Nat
/-- Which line a full L1 evicts, and which word a full constant cache drops (log 87). -/
opaque l1Victim : Nat → Nat
opaque constVictim : Nat → Nat
/-- A byte the device reads for itself at a physical address that has no home (log 4). -/
opaque homelessByte : Nat → Byte
/-- Which of the values that R125 allows a byte of a stranded line reads (log 17). -/
opaque strandedPick : Nat → Nat

end Sys2Proof.Config
end

