-- ==== Sys2Proof/Syntax.lean ====
section
/-! DEFINITION. The syntax: one constructor for every row of spec/opcode_table.json, the 173 opcodes of
R233 with their decoded operands and the 80 events of the device with the operands their agent supplies. -/

namespace Sys2Proof

/-! ### Operands of instruction words -/

/-- The guard of an instruction (R26, R227): none, or a predicate that may be negated. -/
inductive Guard where
  | always
  | pred (n : Nat) (neg : Bool)
  deriving DecidableEq, Repr

/-- A vector register operand (Table 11-4): `v n`, a handler register `h n`, or `vz`. -/
inductive Reg where
  | v (n : Nat)
  | h (n : Nat)
  | z
  deriving DecidableEq, Repr

/-- A 64-bit pair operand (Table 11-4), named by its even low register. -/
inductive Pair where
  | v (n : Nat)
  | h (n : Nat)
  | z
  deriving DecidableEq, Repr

/-- Operand B of the ALU form (R230): a register, a constant-window word, a 20-bit immediate. -/
inductive SrcB where
  | reg (r : Reg)
  | win (w j : Nat)
  | imm (x : BitVec 20)
  deriving DecidableEq, Repr

/-- Operand B of a 64-bit ALU instruction (R257, R283). -/
inductive SrcB64 where
  | pair (p : Pair)
  | win (w j : Nat)
  | imm (x : BitVec 20)
  deriving DecidableEq, Repr

/-- The counters a `WAIT` may name (R243, Table 11-8). -/
inductive Ctr where
  | ld | st | cb | tl | sk
  deriving DecidableEq, Repr

/-- Wrap or saturate, of `IADD` and `ISUB` (Table 12-6). -/
inductive SatKind where
  | wrap | sat | usat
  deriving DecidableEq, Repr

/-- The target range of `ISAT` (Table 12-6). -/
inductive SatRange where
  | i8 | n8 | i16 | n16 | n32
  deriving DecidableEq, Repr

/-- Integer comparison codes (R260). -/
inductive IntCmp where
  | eq | ne | lt | le | gt | ge
  deriving DecidableEq, Repr

/-- Floating-point comparison codes (R269). -/
inductive FltCmp where
  | eq | ne | lt | le | gt | ge | num | nan
  deriving DecidableEq, Repr

/-- `VOTE` modes (R262). -/
inductive VoteMode where
  | all | any | eq
  deriving DecidableEq, Repr

/-- `SHFL` modes (R263). -/
inductive ShflMode where
  | idx | up | down | xor
  deriving DecidableEq, Repr

/-- Reduction operations of `REDUX` and `SCAN` (Table 12-8). -/
inductive RedOp where
  | add | smin | smax | umin | umax | and | or | xor | fadd | fmin | fmax
  deriving DecidableEq, Repr

/-- The rounding field (Table 13-1). -/
inductive Round where
  | rn | rz | ru | rd
  deriving DecidableEq, Repr

/-- The two-bit format codes of the conversions (Table 13-5). -/
inductive CvtFmt where
  | f32 | f16 | bf16 | f64
  deriving DecidableEq, Repr

/-- Destination forms of `CBDEC` (R289). -/
inductive CbFmt where
  | e4m3 | f16 | f32
  deriving DecidableEq, Repr

/-- Source forms of `AMAX` (R291). -/
inductive AmaxFmt where
  | f32 | f16x2 | bf16x2
  deriving DecidableEq, Repr

/-- The modifiers of the floating-point arithmetic instructions (R266). -/
structure FMod where
  rnd : Round
  sat : Bool
  na : Bool
  nb : Bool
  nc : Bool
  deriving DecidableEq, Repr

/-- The modifiers of the packed half-width instructions (R281). -/
structure HMod where
  rnd : Round
  sat : Bool
  bf : Bool
  deriving DecidableEq, Repr

/-- The five memory spaces (R103, Table 11-6). -/
inductive Space where
  | gl | sc | cl | ch | ln
  deriving DecidableEq, Repr

/-- The access widths (Table 11-6). -/
inductive Width where
  | b8 | b16 | b32 | b64 | b128
  deriving DecidableEq, Repr

/-- The five scopes (R157). -/
inductive Scope where
  | w | t | c | p | s
  deriving DecidableEq, Repr

/-- Order of an atomic (Table 14-2). -/
inductive AtomOrd where
  | relaxed | acq | rel | ar
  deriving DecidableEq, Repr

/-- Operation codes of `ATOM` and `RED` (Table 14-2). -/
inductive AtomOp where
  | add | inc | and | or | xor | smin | smax | umin | umax | exch | fadd | fmin | fmax
  deriving DecidableEq, Repr

/-- The modifiers of an atomic (Table 14-2): space, 64-bit, order, scope. -/
structure AtomMod where
  space : Space
  b64 : Bool
  ord : AtomOrd
  scope : Scope
  deriving DecidableEq, Repr

/-- The modifiers of a matrix product (R230): reuse, slot A, slot B, zero-accumulate. -/
structure MmaMod where
  reuse : Bool
  sa : Nat
  sb : Nat
  zero : Bool
  deriving DecidableEq, Repr

/-! ### Operands of device events -/

/-- The functions of the capability list (Table 22-4), each with its own READY bit. -/
inductive DevFn where
  | compute | hbm | fabric | snapshot | keys | energy
  deriving DecidableEq, Repr

/-- The kinds of packet (Table 9-2), with the three for which that table has no code: the delivery of a launch record (R58),
a retirement report (R59) and the increment of a counter (R304) (log 89); and the reserved codes, which a package drops. -/
inductive PktKind where
  | readReq | write | atomic | response | ack | orderedFlag | streamClose | message
  | multicast | chunk | nack | launch | report | increment
  | other (code : Nat)
  deriving DecidableEq, Repr

/-- The KIND field of a packet (Table 9-2); none for the kinds that the table does not name. -/
def PktKind.code : PktKind → Option Nat
  | .readReq => some 0x01
  | .write => some 0x02
  | .atomic => some 0x03
  | .response => some 0x04
  | .ack => some 0x05
  | .orderedFlag => some 0x06
  | .streamClose => some 0x07
  | .message => some 0x08
  | .multicast => some 0x09
  | .chunk => some 0x0A
  | .nack => some 0x0B
  | .launch => none
  | .report => none
  | .increment => none
  | .other c => some c

/-- Whether the kind of a packet is a reserved one (Table 9-2). -/
def PktKind.reserved (k : PktKind) : Bool := k.code.any fun c => c == 0 || 0x0B < c

/-- A packet of the fabric: the header fields of Table 9-1 that a package acts on, the payload as
(byte offset, byte) pairs, and the model's own number of the request it belongs to. The last four fields say what the header
gives no place to (log 90): that the packet counts in its warp's ordered stream (R185), that the next lane of the same atomic
follows it (R184), and which of several packets of one multicast or chunk it is: their common number and its first byte. -/
structure Packet where
  kind : PktKind
  dfid : Nat
  dinc : Nat
  sfid : Nat
  sinc : Nat
  link : Nat
  spine : Nat
  score : Nat
  swarp : Nat
  serial : Nat
  ofcnt : Nat
  tag : Nat
  addr : Nat
  key : Nat
  ctx : Nat
  len : Nat
  atom : Option AtomOp
  cas : Bool
  wide : Bool
  opnd : Nat
  opnd2 : Nat
  data : List (Nat × Byte)
  sig : BitVec 1024
  req : Nat
  stream : Bool := false
  more : Bool := false
  train : Nat := 0
  pos : Nat := 0
  deriving DecidableEq, Repr

/-- What a soft error hit (Table 25-4), as far as the containment of R411 needs it. -/
structure ErrorSite where
  src : Nat
  unit : Nat
  addr : Nat
  ctx : Option Nat
  part : Nat
  cleanCopy : Bool
  /-- the page of the partition's snapshot that the Carter was reading (R423) -/
  carter : Option Nat
  /-- the team whose save met it (R379) -/
  save : Option Nat
  deriving DecidableEq, Repr

/-- One step of the device: a row of spec/opcode_table.json. -/
inductive Instr where
  -- group 0 (Table 12-1)
  | nop (g : Guard)
  | bra (g : Guard) (off : BitVec 20)
  | brx (g : Guard) (a : Pair)
  | call (g : Guard) (d : Pair) (off : BitVec 20)
  | callx (g : Guard) (d a : Pair)
  | ret (g : Guard) (a : Pair)
  | exit (g : Guard)
  | yield (g : Guard)
  | wait (g : Guard) (c : Ctr) (n : Nat)
  | bara (g : Guard) (d cnt : Reg) (b : Nat)
  | barw (g : Guard) (a : Reg) (b : Nat)
  | bars (g : Guard) (cnt : Reg) (b : Nat)
  | rput (g : Guard) (n st : Nat)
  | rget (g : Guard) (n st : Nat) (ph : Bool)
  | rrel (g : Guard) (n st : Nat)
  | sread (g : Guard) (d : Reg) (sr : Nat)
  | swrite (g : Guard) (sr : Nat) (b : Reg)
  | reggrow (g : Guard) (d : Reg) (n : Nat) (nw : Bool)
  | regshrink (g : Guard) (n : Nat)
  | tagq (g : Guard) (d a : Reg)
  | launch (g : Guard) (d a : Pair)
  | lwait (g : Guard) (d : Reg) (a : Pair) (nb : Bool)
  | trap (g : Guard) (n : Nat)
  | brk (g : Guard) (n : Nat)
  | tret (g : Guard) (skip : Bool)
  | tinfo (g : Guard) (d : Reg) (j : Nat)
  | tlbinv (g : Guard) (a : Pair) (b : Reg) (all : Bool)
  -- group 1 (Table 12-6)
  | iadd (g : Guard) (d a : Reg) (b : SrcB) (k : SatKind)
  | isub (g : Guard) (d a : Reg) (b : SrcB) (k : SatKind)
  | imul (g : Guard) (d a : Reg) (b : SrcB)
  | imulh (g : Guard) (d a : Reg) (b : SrcB) (u : Bool)
  | imad (g : Guard) (d a b c : Reg)
  | imadw (g : Guard) (d : Pair) (a b : Reg) (c : Pair) (u : Bool)
  | iadd64 (g : Guard) (d a : Pair) (b : SrcB64)
  | isub64 (g : Guard) (d a : Pair) (b : SrcB64)
  | imin (g : Guard) (d a : Reg) (b : SrcB) (u : Bool)
  | imax (g : Guard) (d a : Reg) (b : SrcB) (u : Bool)
  | iabs (g : Guard) (d a : Reg) (sat : Bool)
  | ineg (g : Guard) (d a : Reg) (sat : Bool)
  | isat (g : Guard) (d a : Reg) (r : SatRange)
  | idiv (g : Guard) (d a : Reg) (b : SrcB) (u : Bool)
  | irem (g : Guard) (d a : Reg) (b : SrcB) (u : Bool)
  | idot4 (g : Guard) (d a b c : Reg) (ua ub : Bool)
  | idot2 (g : Guard) (d a b c : Reg) (ua ub : Bool)
  | lea (g : Guard) (d a : Pair) (b : SrcB) (sh : Nat) (sx : Bool)
  | and (g : Guard) (d a : Reg) (b : SrcB)
  | or (g : Guard) (d a : Reg) (b : SrcB)
  | xor (g : Guard) (d a : Reg) (b : SrcB)
  | andn (g : Guard) (d a : Reg) (b : SrcB)
  | not (g : Guard) (d a : Reg)
  | lop3 (g : Guard) (d a b : Reg) (lut : BitVec 8)
  | shl (g : Guard) (d a : Reg) (b : SrcB)
  | shr (g : Guard) (d a : Reg) (b : SrcB)
  | sar (g : Guard) (d a : Reg) (b : SrcB)
  | rotl (g : Guard) (d a : Reg) (b : SrcB)
  | funl (g : Guard) (d a b c : Reg)
  | funr (g : Guard) (d a b c : Reg)
  | popc (g : Guard) (d a : Reg)
  | clz (g : Guard) (d a : Reg)
  | ctz (g : Guard) (d a : Reg)
  | brev (g : Guard) (d a : Reg)
  | bfx (g : Guard) (d a : Reg) (b : SrcB) (sx : Bool)
  | bfi (g : Guard) (d a b c : Reg)
  | prmt (g : Guard) (d a b c : Reg)
  | isetp (g : Guard) (pd : Nat) (a : Reg) (b : SrcB) (cc : IntCmp) (u : Bool)
  | sel (g : Guard) (d a : Reg) (b : SrcB) (pc : Nat)
  | mov (g : Guard) (d : Reg) (b : SrcB)
  | movi (g : Guard) (d : Reg) (x : Word)
  | movu (g : Guard) (d b : Reg)
  -- group 2 (Tables 12-7 and 13-5)
  | plop3 (g : Guard) (pd pa pb : Nat) (lut : BitVec 8)
  | p2v (g : Guard) (d : Reg) (pa : Nat)
  | v2p (g : Guard) (pd : Nat) (a : Reg) (mask : Bool)
  | vote (g : Guard) (pd pa : Nat) (m : VoteMode)
  | pcnt (g : Guard) (d : Reg) (pa : Nat)
  | elect (g : Guard) (pd : Nat)
  | shfl (g : Guard) (d a : Reg) (b : SrcB) (m : ShflMode)
  | bcast (g : Guard) (d a : Reg) (b : SrcB)
  | redux (g : Guard) (d a : Reg) (op : RedOp)
  | scan (g : Guard) (d a : Reg) (op : RedOp) (excl : Bool)
  | match (g : Guard) (d a : Reg) (b64 : Bool)
  | cvtif (g : Guard) (d a : Reg) (rnd : Round) (u : Bool) (fmt : CvtFmt) (s64 : Bool)
  | cvtfi (g : Guard) (d a : Reg) (rnd : Round) (u : Bool) (fmt : CvtFmt) (d64 : Bool)
  | cvtff (g : Guard) (d a : Reg) (rnd : Round) (dst src : CvtFmt)
  | cvtn (g : Guard) (d a : Reg) (b : SrcB) (slot : Nat)
  | cvtw (g : Guard) (d a : Reg) (b : SrcB) (slot : Nat)
  | cbdec (g : Guard) (d a : Reg) (fmt : CbFmt) (hi : Bool)
  | scalq (g : Guard) (d a : Reg) (slot : Nat)
  | amax (g : Guard) (d a : Reg) (b : SrcB) (warp : Bool) (fmt : AmaxFmt)
  -- group 3 (Table 13-2)
  | fadd (g : Guard) (d a : Reg) (b : SrcB) (m : FMod)
  | fsub (g : Guard) (d a : Reg) (b : SrcB) (m : FMod)
  | fmul (g : Guard) (d a : Reg) (b : SrcB) (m : FMod)
  | ffma (g : Guard) (d a b c : Reg) (m : FMod)
  | fmin (g : Guard) (d a : Reg) (b : SrcB)
  | fmax (g : Guard) (d a : Reg) (b : SrcB)
  | fsetp (g : Guard) (pd : Nat) (a : Reg) (b : SrcB) (cc : FltCmp)
  | fclass (g : Guard) (d a : Reg)
  | frnd (g : Guard) (d a : Reg) (rnd : Round)
  | frcp (g : Guard) (d a : Reg)
  | frsq (g : Guard) (d a : Reg)
  | fsqrt (g : Guard) (d a : Reg) (rnd : Round)
  | fdiv (g : Guard) (d a : Reg) (b : SrcB) (rnd : Round)
  | fexpf (g : Guard) (d a : Reg)
  | flogf (g : Guard) (d a : Reg)
  | fsin (g : Guard) (d a : Reg)
  | fcos (g : Guard) (d a : Reg)
  | fscale (g : Guard) (d a : Reg) (b : SrcB) (rnd : Round)
  | fexpo (g : Guard) (d a : Reg)
  | fmant (g : Guard) (d a : Reg)
  | hadd2 (g : Guard) (d a : Reg) (b : SrcB) (m : HMod)
  | hmul2 (g : Guard) (d a : Reg) (b : SrcB) (m : HMod)
  | hfma2 (g : Guard) (d a b c : Reg) (m : HMod)
  | hmnmx2 (g : Guard) (d a : Reg) (b : SrcB) (max bf : Bool)
  | fdot2 (g : Guard) (d a b c : Reg) (m : HMod)
  | dadd (g : Guard) (d a : Pair) (b : SrcB64) (m : FMod)
  | dmul (g : Guard) (d a : Pair) (b : SrcB64) (m : FMod)
  | dfma (g : Guard) (d a b c : Pair) (m : FMod)
  -- group 4 (Table 14-1)
  | ld (g : Guard) (sp : Space) (w : Width) (d a : Reg) (off : BitVec 20)
  | st (g : Guard) (sp : Space) (w : Width) (ofl : Bool) (d a : Reg) (off : BitVec 20)
  | ldk (g : Guard) (d a : Reg) (win : Nat) (b64 : Bool)
  | ldacq (g : Guard) (sp : Space) (w : Width) (sc : Scope) (d a : Reg) (off : BitVec 20)
  | strel (g : Guard) (sp : Space) (w : Width) (sc : Scope) (d a : Reg) (off : BitVec 20)
  | atom (g : Guard) (op : AtomOp) (m : AtomMod) (d a b : Reg)
  | atomc (g : Guard) (m : AtomMod) (d a b c : Reg)
  | red (g : Guard) (op : AtomOp) (m : AtomMod) (a b : Reg)
  | fence (g : Guard) (sc : Scope)
  | fencea (g : Guard) (mask : BitVec 4)
  | cwb (g : Guard) (l2 : Bool) (a : Pair) (b : Reg)
  | cinv (g : Guard) (l2 : Bool) (a : Pair) (b : Reg)
  | cpf (g : Guard) (l2 : Bool) (a : Pair) (off : BitVec 20)
  | slcdr (g : Guard) (b : Reg)
  -- group 5 (Table 14-4)
  | cpy (g : Guard) (ds ss : Space) (d a b : Reg) (off : BitVec 10)
  | cpyt (g : Guard) (ds ss : Space) (d a b : Reg) (off : BitVec 10)
  | cpyx (g : Guard) (ds ss : Space) (d a b : Reg) (off : BitVec 10)
  | cpyo (g : Guard) (ds ss : Space) (d a b : Reg) (off : BitVec 10)
  | cseal (g : Guard) (d : Reg)
  | cwait (g : Guard) (a : Reg)
  | shopen (g : Guard) (a : Pair) (b : Reg)
  | publish (g : Guard) (sc : Scope) (a : Pair) (b : Reg)
  | shdrop (g : Guard) (a : Pair) (b : Reg)
  | put (g : Guard) (ss : Space) (ntf : Bool) (d a b : Reg) (off : BitVec 10)
  | get (g : Guard) (ds : Space) (ntf : Bool) (d a b : Reg) (off : BitVec 10)
  | mcast (g : Guard) (a : Pair) (b c : Reg)
  | lreg (g : Guard) (d : Reg) (a : Pair) (b c : Reg)
  | ldereg (g : Guard) (b : Reg)
  | send (g : Guard) (len : Nat) (a : Pair) (b c : Reg)
  | rpost (g : Guard) (len : Nat) (d : Reg) (a : Pair) (b : Reg) (c : Pair)
  | rpoll (g : Guard) (d : Pair) (a : Reg)
  | coll (g : Guard) (a : Reg)
  | skmrg (g : Guard) (a b : Pair) (sh : Option Scope)
  | tarm (g : Guard) (d a : Reg) (b c : Pair)
  | tadd (g : Guard) (a : Reg) (b : Pair)
  | trd (g : Guard) (d : Pair) (a : Reg)
  | tdisarm (g : Guard) (d a : Reg)
  -- group 6 (Table 16-1)
  | mma (g : Guard) (t : Nat) (a b : Reg) (m : MmaMod)
  | mmas (g : Guard) (t : Nat) (a b c : Reg) (m : MmaMod)
  | mmac (g : Guard) (t : Nat) (a b : Reg) (m : MmaMod)
  | mzero (g : Guard) (t : Nat)
  | mrd (g : Guard) (d : Reg) (t q : Nat)
  | mwr (g : Guard) (t : Nat) (a : Reg) (q : Nat)
  | mld (g : Guard) (t : Nat) (a : Reg)
  | mst (g : Guard) (t : Nat) (gl cvt : Bool) (slot : Nat) (a : Reg)
  | mrel (g : Guard)
  -- group 7 (Table 18-1)
  | skins (g : Guard) (d : Reg) (a b : Pair) (c : Reg) (w : Bool)
  | skdel (g : Guard) (d : Reg) (a b : Pair) (c : Reg) (w : Bool)
  | skqry (g : Guard) (d : Reg) (a b : Pair) (c : Reg)
  | skcard (g : Guard) (d a : Pair) (c : Reg)
  | skrank (g : Guard) (d a : Pair) (b c : Reg)
  | skqtl (g : Guard) (d : Reg) (a : Pair) (b c : Reg)
  | skhash (g : Guard) (d a b : Pair) (n : Nat)
  | skfold (g : Guard) (sc : Scope) (a : Pair)
  | skclr (g : Guard) (sc : Scope) (a : Pair)
  | skstat (g : Guard) (d a : Pair) (j : Nat)
  | skinv (g : Guard) (a : Pair)
  -- events of a core
  | clauseDispatch (core : Nat)
  | laneComplete (w : WarpId) (k : Nat × Mask)
  | instructionRetire (w : WarpId)
  | loadBind (w : WarpId) (id : Nat) (m : Mask)
  | storePerform (w : WarpId) (id : Nat) (m : Mask)
  | writeAcknowledged (w : WarpId) (id : Nat)
  | l1WritebackTimer (core line key sector : Nat)
  | l1PeriodicInvalidate (core : Nat)
  | overflowSignatureClear (slice : Nat)
  | porterServe (cluster : Nat)
  | copyTransfer (w : WarpId) (id : Nat)
  | copyLand (w : WarpId) (id : Nat)
  | batchFinish (w : WarpId) (serial : Nat)
  | tileOpExecute (w : WarpId) (tile : Nat)
  | weigherUpdate (w : WarpId) (id lane : Nat)
  | mergeUnit (w : WarpId) (id unit : Nat)
  | regionPublish (w : WarpId) (id : Nat)
  | lawLostReport (w : WarpId) (addr desc : Nat)
  | cowTwinCopy (part page : Nat)
  | fillReroute (k : Nat)
  -- launch queues, grids, teams
  | doorbell (q : Nat) (v : Word)
  | hostRingCopy (q : Nat)
  | recordArrival (q : Nat)
  | remoteLaunchDelivery (p : Packet)
  | teamPlace (part : Nat)
  | teamExit (team : Nat)
  | gridRetire (grid : Nat)
  | retirementReport (p : Packet)
  | retirementIncrement (p : Packet)
  -- contexts, saves, halts
  | preemptRequest (ctx : Nat)
  | contextResume (ctx : Nat)
  | contextDefine (ctx : Nat) (w0 root save : DWord)
  | contextDiscard (ctx : Nat)
  | deadlineExpire (team : Nat)
  | teamSave (team : Nat)
  | handlerEntry (core : Nat)
  | teamHalt (team : Nat)
  | watchdogExpire (w : WarpId)
  | eventAppend (ctx : Nat)
  | pageServiceAnswer (part ctx : Nat)
  | pageServiceRefuse (part ctx : Nat)
  | correctedError (e : ErrorSite)
  | uncorrectableError (e : ErrorSite)
  -- the fabric
  | readRequest (p : Packet)
  | write (p : Packet)
  | atomicOrRed (p : Packet)
  | readOrAtomicResponse (p : Packet)
  | acknowledgement (p : Packet)
  | orderedFlagWrite (p : Packet)
  | streamClose (p : Packet)
  | message (p : Packet)
  | multicastDelivery (p : Packet)
  | collectiveChunk (p : Packet)
  | negativeAcknowledgement (p : Packet)
  | remoteTimeout (req : Nat)
  | flagHoldTimeout (k : Nat)
  | treeBreak (tree : Nat)
  | treeCreate (w : DWord)
  | treeRelease (w : DWord)
  -- bring-up, host, services
  | packageReset
  | functionReady (f : DevFn)
  | linkTraining (fid inc : Nat) (offers : List Nat) (links : BitVec 16)
  | bar2Read (off len : Nat)
  | bar2Write (off : Nat) (data : List Byte)
  | tlbi (w : DWord)
  | keyLoad
  | keyZero
  | partitionEnable (part : Nat) (w : DWord)
  | partitionDisable (part : Nat) (w : DWord)
  | redir (part : Nat)
  | energyWindowBoundary
  | chargeExpire (part k : Nat)
  | snapshotArm (part : Nat) (w : DWord)
  | snapshotCut (part : Nat)
  | carterDrainPage (part page : Nat)
  | snapshotRetry (part : Nat)
  | snapshotAbort (part : Nat)
  | registerWrite (off : Nat) (w : DWord)
  | streamEntryCloseTimeout (k : Nat)
  | treeRequestStatus (status tree : Nat)
  deriving DecidableEq, Repr

end Sys2Proof
end

