-- ==== Sys2Proof/Decode.lean ====
section
/-! DEFINITION. The decoder of instruction words (Tables 11-3, 11-4, 11-6, 12-1, 12-6, 12-7, 13-2, 13-5, 14-1, 14-2,
14-4, 16-1, 18-1), total on every 64-bit word, and the encoder written from the same tables. -/

namespace Sys2Proof

/-! ### Fields -/

/-- The eight fields of an instruction word (Table 11-3). -/
structure Fields where
  op : Nat
  pg : Nat
  pn : Nat
  d : Nat
  a : Nat
  b : Nat
  c : Nat
  m : Nat
  deriving DecidableEq, Repr

/-- Why a word is no instruction: check 1 or check 3 of R229. -/
inductive DecodeError where
  /-- The opcode is a reserved cell of Table 11-9 (fault 0x01). -/
  | illegalOpcode (op : Nat)
  /-- A guard, register field or modifier is reserved for this opcode (fault 0x03). -/
  | illegalOperand (op : Nat)
  deriving DecidableEq, Repr

/-- The fields of a word (R227). -/
def fieldsOf (w : Nat) : Fields :=
  { op := w / 2 ^ 55 % 512, pg := w / 2 ^ 49 % 64, pn := w / 2 ^ 48 % 2, d := w / 2 ^ 38 % 1024,
    a := w / 2 ^ 28 % 1024, b := w / 2 ^ 18 % 1024, c := w / 2 ^ 8 % 1024, m := w % 256 }

/-- The word of eight fields (R227). -/
def Fields.pack (f : Fields) : Nat :=
  f.op * 2 ^ 55 + f.pg * 2 ^ 49 + f.pn * 2 ^ 48 + f.d * 2 ^ 38 + f.a * 2 ^ 28 + f.b * 2 ^ 18 + f.c * 2 ^ 8 + f.m

/-- The twenty-bit value of B and C (R230). -/
def Fields.bc (f : Fields) : Nat := f.b * 1024 + f.c

/-- A guard (R26, R227). -/
def guardF (pg pn : Nat) : Option Guard :=
  if pg < 48 then some (.pred pg (pn == 1))
  else if pg = 63 ∧ pn = 0 then some .always else none

/-- A vector register field (Table 11-4). -/
def regF (n : Nat) : Option Reg :=
  if n < 768 then some (.v n)
  else if 960 ≤ n ∧ n < 992 then some (.h (n - 960))
  else if n = 1023 then some .z else none

/-- A pair field (Table 11-4). -/
def pairF (n : Nat) : Option Pair :=
  if n % 2 = 0 ∧ n < 768 then some (.v n)
  else if n % 2 = 0 ∧ 960 ≤ n ∧ n < 992 then some (.h (n - 960))
  else if n = 1023 then some .z else none

/-- A register field that names a pair, kept as its low register. -/
def evenF (n : Nat) : Option Reg :=
  if n % 2 = 0 ∨ n = 1023 then regF n else none

/-- A register field that names a quad (R390): a multiple of 4, never `vz`. -/
def quadF (n : Nat) : Option Reg :=
  if n % 4 = 0 then regF n else none

/-- A field the description leaves unused (R237). -/
def unused (n : Nat) : Option Unit := if n = 1023 then some () else none

/-- A condition an operand must meet. -/
def need (b : Bool) : Option Unit := if b then some () else none

/-- A predicate field (Table 11-4). -/
def predF (n : Nat) : Option Nat := if n < 48 then some n else none

/-- A tile field before the grant is known (Table 11-4). -/
def tileF (n : Nat) : Option Nat := if n < 16 then some n else none

/-- A register of one word, or the low register of a pair. -/
def regOrEven (pair : Bool) (n : Nat) : Option Reg := if pair then evenF n else regF n

/-- Operand B of the ALU form (R230); `imm` says whether kind 10 is allowed. -/
def srcBF (f : Fields) (imm : Bool) : Option SrcB :=
  match f.m / 64 with
  | 0 => do unused f.c; (regF f.b).map .reg
  | 1 => some (.win (f.bc / 2 ^ 17) (f.bc % 2 ^ 17))
  | 2 => if imm then some (.imm (BitVec.ofNat 20 f.bc)) else none
  | _ => none

/-- Operand B of a 64-bit ALU instruction. -/
def srcB64F (f : Fields) (imm : Bool) : Option SrcB64 :=
  match f.m / 64 with
  | 0 => do unused f.c; (pairF f.b).map .pair
  | 1 => some (.win (f.bc / 2 ^ 17) (f.bc % 2 ^ 17))
  | 2 => if imm then some (.imm (BitVec.ofNat 20 f.bc)) else none
  | _ => none

/-! ### Codes of the modifiers -/

def Ctr.ofCode : Nat → Option Ctr
  | 0 => some .ld | 1 => some .st | 2 => some .cb | 3 => some .tl | 4 => some .sk | _ => none
def Ctr.code : Ctr → Nat
  | .ld => 0 | .st => 1 | .cb => 2 | .tl => 3 | .sk => 4
def SatKind.ofCode : Nat → Option SatKind
  | 0 => some .wrap | 1 => some .sat | 2 => some .usat | _ => none
def SatKind.code : SatKind → Nat
  | .wrap => 0 | .sat => 1 | .usat => 2
def SatRange.ofCode : Nat → Option SatRange
  | 0 => some .i8 | 1 => some .n8 | 2 => some .i16 | 3 => some .n16 | 4 => some .n32 | _ => none
def SatRange.code : SatRange → Nat
  | .i8 => 0 | .n8 => 1 | .i16 => 2 | .n16 => 3 | .n32 => 4
def IntCmp.ofCode : Nat → Option IntCmp
  | 0 => some .eq | 1 => some .ne | 2 => some .lt | 3 => some .le | 4 => some .gt | 5 => some .ge | _ => none
def IntCmp.code : IntCmp → Nat
  | .eq => 0 | .ne => 1 | .lt => 2 | .le => 3 | .gt => 4 | .ge => 5
def FltCmp.ofCode : Nat → Option FltCmp
  | 0 => some .eq | 1 => some .ne | 2 => some .lt | 3 => some .le | 4 => some .gt | 5 => some .ge
  | 6 => some .num | 7 => some .nan | _ => none
def FltCmp.code : FltCmp → Nat
  | .eq => 0 | .ne => 1 | .lt => 2 | .le => 3 | .gt => 4 | .ge => 5 | .num => 6 | .nan => 7
def VoteMode.ofCode : Nat → Option VoteMode
  | 0 => some .all | 1 => some .any | 2 => some .eq | _ => none
def VoteMode.code : VoteMode → Nat
  | .all => 0 | .any => 1 | .eq => 2
def ShflMode.ofCode : Nat → Option ShflMode
  | 0 => some .idx | 1 => some .up | 2 => some .down | 3 => some .xor | _ => none
def ShflMode.code : ShflMode → Nat
  | .idx => 0 | .up => 1 | .down => 2 | .xor => 3
def RedOp.ofCode : Nat → Option RedOp
  | 0 => some .add | 1 => some .smin | 2 => some .smax | 3 => some .umin | 4 => some .umax | 5 => some .and
  | 6 => some .or | 7 => some .xor | 8 => some .fadd | 9 => some .fmin | 10 => some .fmax | _ => none
def RedOp.code : RedOp → Nat
  | .add => 0 | .smin => 1 | .smax => 2 | .umin => 3 | .umax => 4 | .and => 5
  | .or => 6 | .xor => 7 | .fadd => 8 | .fmin => 9 | .fmax => 10
def Round.ofCode : Nat → Option Round
  | 0 => some .rn | 1 => some .rz | 2 => some .ru | 3 => some .rd | _ => none
def Round.code : Round → Nat
  | .rn => 0 | .rz => 1 | .ru => 2 | .rd => 3
def CvtFmt.ofCode : Nat → Option CvtFmt
  | 0 => some .f32 | 1 => some .f16 | 2 => some .bf16 | 3 => some .f64 | _ => none
def CvtFmt.code : CvtFmt → Nat
  | .f32 => 0 | .f16 => 1 | .bf16 => 2 | .f64 => 3
def CbFmt.ofCode : Nat → Option CbFmt
  | 0 => some .e4m3 | 1 => some .f16 | 2 => some .f32 | _ => none
def CbFmt.code : CbFmt → Nat
  | .e4m3 => 0 | .f16 => 1 | .f32 => 2
def AmaxFmt.ofCode : Nat → Option AmaxFmt
  | 0 => some .f32 | 1 => some .f16x2 | 2 => some .bf16x2 | _ => none
def AmaxFmt.code : AmaxFmt → Nat
  | .f32 => 0 | .f16x2 => 1 | .bf16x2 => 2
def Space.ofCode : Nat → Option Space
  | 0 => some .gl | 1 => some .sc | 2 => some .cl | 3 => some .ch | 4 => some .ln | _ => none
def Space.code : Space → Nat
  | .gl => 0 | .sc => 1 | .cl => 2 | .ch => 3 | .ln => 4
def Width.ofCode : Nat → Option Width
  | 0 => some .b8 | 1 => some .b16 | 2 => some .b32 | 3 => some .b64 | 4 => some .b128 | _ => none
def Width.code : Width → Nat
  | .b8 => 0 | .b16 => 1 | .b32 => 2 | .b64 => 3 | .b128 => 4
/-- Scopes of `LDACQ`, `STREL` (Table 11-6), of atomics and of group 5 and 7: `.t` is 0. -/
def Scope.ofCode : Nat → Option Scope
  | 0 => some .t | 1 => some .c | 2 => some .p | 3 => some .s | _ => none
def Scope.code : Scope → Nat
  | .w => 0 | .t => 0 | .c => 1 | .p => 2 | .s => 3
/-- Scopes of `FENCE` (Table 14-1): `.w` is 0. -/
def Scope.ofFence : Nat → Option Scope
  | 0 => some .w | 1 => some .t | 2 => some .c | 3 => some .p | 4 => some .s | _ => none
def Scope.fence : Scope → Nat
  | .w => 0 | .t => 1 | .c => 2 | .p => 3 | .s => 4
def AtomOrd.ofCode : Nat → Option AtomOrd
  | 0 => some .relaxed | 1 => some .acq | 2 => some .rel | 3 => some .ar | _ => none
def AtomOrd.code : AtomOrd → Nat
  | .relaxed => 0 | .acq => 1 | .rel => 2 | .ar => 3
def AtomOp.ofCode : Nat → Option AtomOp
  | 0 => some .add | 1 => some .inc | 2 => some .and | 3 => some .or | 4 => some .xor | 5 => some .smin
  | 6 => some .smax | 7 => some .umin | 8 => some .umax | 9 => some .exch | 10 => some .fadd
  | 11 => some .fmin | 12 => some .fmax | _ => none
def AtomOp.code : AtomOp → Nat
  | .add => 0 | .inc => 1 | .and => 2 | .or => 3 | .xor => 4 | .smin => 5
  | .smax => 6 | .umin => 7 | .umax => 8 | .exch => 9 | .fadd => 10 | .fmin => 11 | .fmax => 12

/-- A Bool from a bit. -/
def flag (n : Nat) : Bool := n == 1
/-- A bit from a Bool. -/
def bit (b : Bool) : Nat := if b then 1 else 0

/-- Bits of a modifier field: bit `lo` upward, `n` bits. -/
def mbits (m lo n : Nat) : Nat := m / 2 ^ lo % 2 ^ n

/-! ### Special registers (Table 12-3) -/

/-- Whether a special register number is assigned. -/
def srAssigned (n : Nat) : Bool := n ≤ 21 || (32 ≤ n && n ≤ 41)
/-- Whether it holds 64 bits. -/
def srWide (n : Nat) : Bool := n == 14 || n == 20 || (32 ≤ n && n ≤ 40)
/-- Whether `SWRITE` may name it. -/
def srWritable (n : Nat) : Bool := n == 15 || (32 ≤ n && n ≤ 41)

/-! ### Group decoders: index within the group, fields, guard -/

/-- Group 0, control and synchronization (Table 12-1). -/
def decodeGroup0 (k : Nat) (f : Fields) (g : Guard) : Option Instr :=
  match k with
  | 0 => do unused f.d; unused f.a; unused f.b; unused f.c; need (f.m == 0); some (.nop g)
  | 1 => do unused f.d; unused f.a; need (f.m == 0); some (.bra g (BitVec.ofNat 20 f.bc))
  | 2 => do unused f.d; unused f.b; unused f.c; need (f.m == 0); let a ← pairF f.a; some (.brx g a)
  | 3 => do unused f.a; need (f.m == 0); let d ← pairF f.d; some (.call g d (BitVec.ofNat 20 f.bc))
  | 4 => do unused f.b; unused f.c; need (f.m == 0); let d ← pairF f.d; let a ← pairF f.a; some (.callx g d a)
  | 5 => do unused f.d; unused f.b; unused f.c; need (f.m == 0); let a ← pairF f.a; some (.ret g a)
  | 6 => do unused f.d; unused f.a; unused f.b; unused f.c; need (f.m == 0); some (.exit g)
  | 7 => do unused f.d; unused f.a; unused f.b; unused f.c; need (f.m == 0); some (.yield g)
  | 8 => do unused f.d; unused f.a; unused f.b; unused f.c
            let c ← Ctr.ofCode (mbits f.m 0 3); some (.wait g c (mbits f.m 3 5))
  | 9 => do unused f.a; unused f.c; need (f.m / 16 == 0)
            let d ← regF f.d; let b ← regF f.b; some (.bara g d b (mbits f.m 0 4))
  | 10 => do unused f.d; unused f.b; unused f.c; need (f.m / 16 == 0)
             let a ← regF f.a; some (.barw g a (mbits f.m 0 4))
  | 11 => do unused f.d; unused f.a; unused f.c; need (f.m / 16 == 0)
             let b ← regF f.b; some (.bars g b (mbits f.m 0 4))
  | 12 => do unused f.d; unused f.a; unused f.b; unused f.c; need (mbits f.m 3 1 == 0)
             some (.rput g (mbits f.m 0 3) (mbits f.m 4 4))
  | 13 => do unused f.d; unused f.a; unused f.b; unused f.c
             some (.rget g (mbits f.m 0 3) (mbits f.m 4 4) (flag (mbits f.m 3 1)))
  | 14 => do unused f.d; unused f.a; unused f.b; unused f.c; need (mbits f.m 3 1 == 0)
             some (.rrel g (mbits f.m 0 3) (mbits f.m 4 4))
  | 15 => do unused f.b; unused f.c; need (f.m == 0); need (srAssigned f.a)
             let d ← regOrEven (srWide f.a) f.d; some (.sread g d f.a)
  | 16 => do unused f.d; unused f.c; need (f.m == 0); need (srWritable f.a)
             let b ← regOrEven (srWide f.a) f.b; some (.swrite g f.a b)
  | 17 => do unused f.a; unused f.b; unused f.c; need (f.m / 64 == 0)
             let n := mbits f.m 0 5
             need (1 ≤ n && n ≤ 24)
             let d ← regF f.d; some (.reggrow g d n (flag (mbits f.m 5 1)))
  | 18 => do unused f.d; unused f.a; unused f.b; unused f.c; need (f.m / 32 == 0)
             let n := mbits f.m 0 5
             need (1 ≤ n && n ≤ 24); some (.regshrink g n)
  | 19 => do unused f.b; unused f.c; need (f.m == 0); let d ← regF f.d; let a ← regF f.a; some (.tagq g d a)
  | 20 => do unused f.b; unused f.c; need (f.m == 0); let d ← pairF f.d; let a ← pairF f.a; some (.launch g d a)
  | 21 => do unused f.b; unused f.c; need (f.m / 2 == 0)
             let d ← regF f.d; let a ← pairF f.a; some (.lwait g d a (flag (mbits f.m 0 1)))
  | 22 => do unused f.d; unused f.a; unused f.b; unused f.c; some (.trap g f.m)
  | 23 => do unused f.d; unused f.a; unused f.b; unused f.c; some (.brk g f.m)
  | 24 => do unused f.d; unused f.a; unused f.b; unused f.c; need (f.m / 2 == 0); some (.tret g (flag (mbits f.m 0 1)))
  | 25 => do unused f.a; unused f.b; unused f.c; need (f.m / 16 == 0); let d ← regF f.d; some (.tinfo g d f.m)
  | 26 => do unused f.d; unused f.c; need (f.m / 2 == 0)
             let a ← pairF f.a; let b ← regF f.b; some (.tlbinv g a b (flag (mbits f.m 0 1)))
  | _ => none

/-- A binary operation `d, a, b` of the ALU form whose modifier bits are `mb` bits wide. -/
def decodeBin (f : Fields) (imm : Bool) (mb : Nat) (k : Reg → Reg → SrcB → Nat → Option Instr) : Option Instr := do
  need (f.m % 64 / 2 ^ mb == 0)
  let d ← regF f.d
  let a ← regF f.a
  let b ← srcBF f imm
  k d a b (f.m % 2 ^ mb)

/-- A unary operation `d, a` of the ALU form. -/
def decodeUn (f : Fields) (mb : Nat) (k : Reg → Reg → Nat → Option Instr) : Option Instr := do
  unused f.b
  unused f.c
  need (f.m / 2 ^ mb == 0)
  let d ← regF f.d
  let a ← regF f.a
  k d a f.m

/-- A ternary operation `d, a, b, c` of the ALU form (kind 00 only). -/
def decodeTer (f : Fields) (mb : Nat) (k : Reg → Reg → Reg → Reg → Nat → Option Instr) : Option Instr := do
  need (f.m / 2 ^ mb == 0)
  let d ← regF f.d
  let a ← regF f.a
  let b ← regF f.b
  let c ← regF f.c
  k d a b c f.m

/-- A 64-bit operation `d, a, b` of the ALU form. -/
def decodeBin64 (f : Fields) (imm : Bool) (mb : Nat) (k : Pair → Pair → SrcB64 → Nat → Option Instr) :
    Option Instr := do
  need (f.m % 64 / 2 ^ mb == 0)
  let d ← pairF f.d
  let a ← pairF f.a
  let b ← srcB64F f imm
  k d a b (f.m % 2 ^ mb)

/-- Group 1, integer and logic (Table 12-6). -/
def decodeGroup1 (k : Nat) (f : Fields) (g : Guard) : Option Instr :=
  match k with
  | 0 => decodeBin f true 2 fun d a b m => do let q ← SatKind.ofCode m; some (.iadd g d a b q)
  | 1 => decodeBin f true 2 fun d a b m => do let q ← SatKind.ofCode m; some (.isub g d a b q)
  | 2 => decodeBin f true 0 fun d a b _ => some (.imul g d a b)
  | 3 => decodeBin f true 1 fun d a b m => some (.imulh g d a b (flag m))
  | 4 => decodeTer f 0 fun d a b c _ => some (.imad g d a b c)
  | 5 => do need (f.m / 2 == 0)
            let d ← pairF f.d; let a ← regF f.a; let b ← regF f.b; let c ← pairF f.c
            some (.imadw g d a b c (flag f.m))
  | 6 => decodeBin64 f true 0 fun d a b _ => some (.iadd64 g d a b)
  | 7 => decodeBin64 f true 0 fun d a b _ => some (.isub64 g d a b)
  | 8 => decodeBin f true 1 fun d a b m => some (.imin g d a b (flag m))
  | 9 => decodeBin f true 1 fun d a b m => some (.imax g d a b (flag m))
  | 10 => decodeUn f 1 fun d a m => some (.iabs g d a (flag m))
  | 11 => decodeUn f 1 fun d a m => some (.ineg g d a (flag m))
  | 12 => decodeUn f 3 fun d a m => do let r ← SatRange.ofCode m; some (.isat g d a r)
  | 13 => decodeBin f true 1 fun d a b m => some (.idiv g d a b (flag m))
  | 14 => decodeBin f true 1 fun d a b m => some (.irem g d a b (flag m))
  | 15 => decodeTer f 2 fun d a b c m => some (.idot4 g d a b c (flag (mbits m 0 1)) (flag (mbits m 1 1)))
  | 16 => decodeTer f 2 fun d a b c m => some (.idot2 g d a b c (flag (mbits m 0 1)) (flag (mbits m 1 1)))
  | 17 => do let d ← pairF f.d; let a ← pairF f.a; let b ← srcBF f true
             some (.lea g d a b (mbits f.m 0 5) (flag (mbits f.m 5 1)))
  | 18 => decodeBin f true 0 fun d a b _ => some (.and g d a b)
  | 19 => decodeBin f true 0 fun d a b _ => some (.or g d a b)
  | 20 => decodeBin f true 0 fun d a b _ => some (.xor g d a b)
  | 21 => decodeBin f true 0 fun d a b _ => some (.andn g d a b)
  | 22 => decodeUn f 0 fun d a _ => some (.not g d a)
  | 23 => do need (f.m == 0); need (f.c / 256 == 0)
             let d ← regF f.d; let a ← regF f.a; let b ← regF f.b
             some (.lop3 g d a b (BitVec.ofNat 8 f.c))
  | 24 => decodeBin f true 0 fun d a b _ => some (.shl g d a b)
  | 25 => decodeBin f true 0 fun d a b _ => some (.shr g d a b)
  | 26 => decodeBin f true 0 fun d a b _ => some (.sar g d a b)
  | 27 => decodeBin f true 0 fun d a b _ => some (.rotl g d a b)
  | 28 => decodeTer f 0 fun d a b c _ => some (.funl g d a b c)
  | 29 => decodeTer f 0 fun d a b c _ => some (.funr g d a b c)
  | 30 => decodeUn f 0 fun d a _ => some (.popc g d a)
  | 31 => decodeUn f 0 fun d a _ => some (.clz g d a)
  | 32 => decodeUn f 0 fun d a _ => some (.ctz g d a)
  | 33 => decodeUn f 0 fun d a _ => some (.brev g d a)
  | 34 => decodeBin f true 1 fun d a b m => some (.bfx g d a b (flag m))
  | 35 => decodeTer f 0 fun d a b c _ => some (.bfi g d a b c)
  | 36 => decodeTer f 0 fun d a b c _ => some (.prmt g d a b c)
  | 37 => do need (mbits f.m 4 2 == 0)
             let pd ← predF f.d; let a ← regF f.a; let b ← srcBF f true
             let cc ← IntCmp.ofCode (mbits f.m 0 3); some (.isetp g pd a b cc (flag (mbits f.m 3 1)))
  | 38 => do let d ← regF f.d; let a ← regF f.a; let b ← srcBF f true
             let pc ← predF (mbits f.m 0 6); some (.sel g d a b pc)
  | 39 => do unused f.a; need (f.m % 64 == 0); let d ← regF f.d; let b ← srcBF f true; some (.mov g d b)
  | 40 => do need (f.m / 4 == 32); let d ← regF f.d
             some (.movi g d (BitVec.ofNat 32 (f.bc + f.a * 2 ^ 20 + f.m % 4 * 2 ^ 30)))
  | 41 => do unused f.a; unused f.c; need (f.m == 0); let d ← regF f.d; let b ← regF f.b; some (.movu g d b)
  | _ => none

/-- Group 2, predicate, cross-lane and conversion (Tables 12-7 and 13-5). -/
def decodeGroup2 (k : Nat) (f : Fields) (g : Guard) : Option Instr :=
  match k with
  | 0 => do need (f.m == 0); need (f.c / 256 == 0)
            let d ← predF f.d; let a ← predF f.a; let b ← predF f.b
            some (.plop3 g d a b (BitVec.ofNat 8 f.c))
  | 1 => do unused f.b; unused f.c; need (f.m == 0); let d ← regF f.d; let a ← predF f.a; some (.p2v g d a)
  | 2 => do unused f.b; unused f.c; need (f.m / 2 == 0)
            let d ← predF f.d; let a ← regF f.a; some (.v2p g d a (flag f.m))
  | 3 => do unused f.b; unused f.c; need (f.m / 4 == 0)
            let d ← predF f.d; let a ← predF f.a; let q ← VoteMode.ofCode f.m; some (.vote g d a q)
  | 4 => do unused f.b; unused f.c; need (f.m == 0); let d ← regF f.d; let a ← predF f.a; some (.pcnt g d a)
  | 5 => do unused f.a; unused f.b; unused f.c; need (f.m == 0); let d ← predF f.d; some (.elect g d)
  | 6 => decodeBin f true 2 fun d a b m => do let q ← ShflMode.ofCode m; some (.shfl g d a b q)
  | 7 => decodeBin f true 0 fun d a b _ => some (.bcast g d a b)
  | 8 => decodeUn f 4 fun d a m => do let q ← RedOp.ofCode m; some (.redux g d a q)
  | 9 => decodeUn f 5 fun d a m => do
            let q ← RedOp.ofCode (mbits m 0 4); some (.scan g d a q (flag (mbits m 4 1)))
  | 10 => do unused f.b; unused f.c; need (f.m / 2 == 0)
             let d ← regF f.d; let a ← regOrEven (flag f.m) f.a; some (.match g d a (flag f.m))
  | 11 => do unused f.b; unused f.c; need (f.m / 64 == 0)
             let r ← Round.ofCode (mbits f.m 0 2); let q ← CvtFmt.ofCode (mbits f.m 3 2)
             let s := flag (mbits f.m 5 1)
             let d ← regOrEven (q == .f64) f.d; let a ← regOrEven s f.a
             some (.cvtif g d a r (flag (mbits f.m 2 1)) q s)
  | 12 => do unused f.b; unused f.c; need (f.m / 64 == 0)
             let r ← Round.ofCode (mbits f.m 0 2); let q ← CvtFmt.ofCode (mbits f.m 3 2)
             let s := flag (mbits f.m 5 1)
             let d ← regOrEven s f.d; let a ← regOrEven (q == .f64) f.a
             some (.cvtfi g d a r (flag (mbits f.m 2 1)) q s)
  | 13 => do unused f.b; unused f.c; need (f.m / 64 == 0)
             let r ← Round.ofCode (mbits f.m 0 2)
             let q ← CvtFmt.ofCode (mbits f.m 2 2); let p ← CvtFmt.ofCode (mbits f.m 4 2)
             let d ← regOrEven (q == .f64) f.d; let a ← regOrEven (p == .f64) f.a
             some (.cvtff g d a r q p)
  | 14 => decodeBin f true 3 fun d a b m => some (.cvtn g d a b m)
  | 15 => decodeBin f true 3 fun d a b m => some (.cvtw g d a b m)
  | 16 => decodeUn f 3 fun d a m => do let q ← CbFmt.ofCode (mbits m 0 2); some (.cbdec g d a q (flag (mbits m 2 1)))
  | 17 => decodeUn f 3 fun d a m => some (.scalq g d a m)
  | 18 => decodeBin f false 3 fun d a b m => do
             let q ← AmaxFmt.ofCode (mbits m 1 2); some (.amax g d a b (flag (mbits m 0 1)) q)
  | _ => none

/-- The modifiers of a floating-point arithmetic instruction (R266); `nc` says whether bit 5 is assigned. -/
def fmodF (m : Nat) (nc : Bool) : Option FMod := do
  need (nc || mbits m 5 1 == 0)
  let r ← Round.ofCode (mbits m 0 2)
  some { rnd := r, sat := flag (mbits m 2 1), na := flag (mbits m 3 1), nb := flag (mbits m 4 1),
         nc := flag (mbits m 5 1) }

/-- The modifiers of a packed half-width instruction (R281). -/
def hmodF (m : Nat) : Option HMod := do
  let r ← Round.ofCode (mbits m 0 2)
  some { rnd := r, sat := flag (mbits m 2 1), bf := flag (mbits m 3 1) }

/-- Group 3, floating point (Table 13-2). -/
def decodeGroup3 (k : Nat) (f : Fields) (g : Guard) : Option Instr :=
  match k with
  | 0 => decodeBin f false 5 fun d a b m => do let q ← fmodF m false; some (.fadd g d a b q)
  | 1 => decodeBin f false 5 fun d a b m => do let q ← fmodF m false; some (.fsub g d a b q)
  | 2 => decodeBin f false 5 fun d a b m => do let q ← fmodF m false; some (.fmul g d a b q)
  | 3 => decodeTer f 6 fun d a b c m => do let q ← fmodF m true; some (.ffma g d a b c q)
  | 4 => decodeBin f false 0 fun d a b _ => some (.fmin g d a b)
  | 5 => decodeBin f false 0 fun d a b _ => some (.fmax g d a b)
  | 6 => do need (mbits f.m 3 3 == 0)
            let pd ← predF f.d; let a ← regF f.a; let b ← srcBF f false
            let cc ← FltCmp.ofCode (mbits f.m 0 3); some (.fsetp g pd a b cc)
  | 7 => decodeUn f 0 fun d a _ => some (.fclass g d a)
  | 8 => decodeUn f 2 fun d a m => do let r ← Round.ofCode m; some (.frnd g d a r)
  | 9 => decodeUn f 0 fun d a _ => some (.frcp g d a)
  | 10 => decodeUn f 0 fun d a _ => some (.frsq g d a)
  | 11 => decodeUn f 2 fun d a m => do let r ← Round.ofCode m; some (.fsqrt g d a r)
  | 12 => decodeBin f false 2 fun d a b m => do let r ← Round.ofCode m; some (.fdiv g d a b r)
  | 13 => decodeUn f 0 fun d a _ => some (.fexpf g d a)
  | 14 => decodeUn f 0 fun d a _ => some (.flogf g d a)
  | 15 => decodeUn f 0 fun d a _ => some (.fsin g d a)
  | 16 => decodeUn f 0 fun d a _ => some (.fcos g d a)
  | 17 => decodeBin f true 2 fun d a b m => do let r ← Round.ofCode m; some (.fscale g d a b r)
  | 18 => decodeUn f 0 fun d a _ => some (.fexpo g d a)
  | 19 => decodeUn f 0 fun d a _ => some (.fmant g d a)
  | 20 => decodeBin f false 4 fun d a b m => do let q ← hmodF m; some (.hadd2 g d a b q)
  | 21 => decodeBin f false 4 fun d a b m => do let q ← hmodF m; some (.hmul2 g d a b q)
  | 22 => decodeTer f 4 fun d a b c m => do let q ← hmodF m; some (.hfma2 g d a b c q)
  | 23 => decodeBin f false 4 fun d a b m => do
             need (mbits m 1 2 == 0); some (.hmnmx2 g d a b (flag (mbits m 0 1)) (flag (mbits m 3 1)))
  | 24 => decodeTer f 4 fun d a b c m => do let q ← hmodF m; some (.fdot2 g d a b c q)
  | 25 => decodeBin64 f false 5 fun d a b m => do let q ← fmodF m false; some (.dadd g d a b q)
  | 26 => decodeBin64 f false 5 fun d a b m => do let q ← fmodF m false; some (.dmul g d a b q)
  | 27 => do need (f.m / 64 == 0)
             let d ← pairF f.d; let a ← pairF f.a; let b ← pairF f.b; let c ← pairF f.c
             let q ← fmodF f.m true; some (.dfma g d a b c q)
  | _ => none

/-- The data register of a memory-form access of a width (R390). -/
def dataF (w : Width) (n : Nat) : Option Reg :=
  match w with
  | .b64 => evenF n
  | .b128 => quadF n
  | _ => regF n

/-- The base register of an access: a pair in `.gl`, kept as its low register. -/
def baseF (sp : Space) (n : Nat) : Option Reg := regOrEven (sp == .gl) n

/-- The modifiers of an atomic (Table 14-2). -/
def atomF (m : Nat) : Option AtomMod := do
  need (m % 2 == 0)
  let sp ← Space.ofCode (mbits m 6 2)
  let o ← AtomOrd.ofCode (mbits m 3 2)
  let sc ← Scope.ofCode (mbits m 1 2)
  need (!(o == .relaxed && sc != .t))
  some { space := sp, b64 := flag (mbits m 5 1), ord := o, scope := sc }

/-- Operand B of `ATOM` and `RED`: 1023 under `.inc` (R298), else a register or pair. -/
def atomB (op : AtomOp) (b64 : Bool) (n : Nat) : Option Reg :=
  if op == .inc then (do unused n; some .z) else regOrEven b64 n

/-- Group 4, memory (Table 14-1). -/
def decodeGroup4 (k : Nat) (f : Fields) (g : Guard) : Option Instr :=
  match k with
  | 0 => do need (mbits f.m 0 2 == 0)
            let sp ← Space.ofCode (mbits f.m 5 3); let w ← Width.ofCode (mbits f.m 2 3)
            let d ← dataF w f.d; let a ← baseF sp f.a
            some (.ld g sp w d a (BitVec.ofNat 20 f.bc))
  | 1 => do let sp ← Space.ofCode (mbits f.m 5 3); let w ← Width.ofCode (mbits f.m 2 3)
            need (mbits f.m 0 2 == 0 || (mbits f.m 0 2 == 1 && sp == .gl))
            let d ← dataF w f.d; let a ← baseF sp f.a
            some (.st g sp w (flag (mbits f.m 0 2)) d a (BitVec.ofNat 20 f.bc))
  | 2 => do unused f.b; unused f.c; need (f.m / 16 == 0)
            let d ← regOrEven (flag (mbits f.m 3 1)) f.d; let a ← regF f.a
            some (.ldk g d a (mbits f.m 0 3) (flag (mbits f.m 3 1)))
  | 3 => do let sp ← Space.ofCode (mbits f.m 5 3); let w ← Width.ofCode (mbits f.m 2 3)
            need (sp != .ln && (w == .b32 || w == .b64))
            let sc ← Scope.ofCode (mbits f.m 0 2)
            let d ← dataF w f.d; let a ← baseF sp f.a
            some (.ldacq g sp w sc d a (BitVec.ofNat 20 f.bc))
  | 4 => do let sp ← Space.ofCode (mbits f.m 5 3); let w ← Width.ofCode (mbits f.m 2 3)
            need (sp != .ln && (w == .b32 || w == .b64))
            let sc ← Scope.ofCode (mbits f.m 0 2)
            let d ← dataF w f.d; let a ← baseF sp f.a
            some (.strel g sp w sc d a (BitVec.ofNat 20 f.bc))
  | 5 => do let q ← atomF f.m; let op ← AtomOp.ofCode f.c
            let d ← regOrEven q.b64 f.d; let a ← baseF q.space f.a; let b ← atomB op q.b64 f.b
            some (.atom g op q d a b)
  | 6 => do let q ← atomF f.m
            let d ← regOrEven q.b64 f.d; let a ← baseF q.space f.a
            let b ← regOrEven q.b64 f.b; let c ← regOrEven q.b64 f.c
            some (.atomc g q d a b c)
  | 7 => do unused f.d; let q ← atomF f.m; let op ← AtomOp.ofCode f.c
            need (op != .exch && (q.ord == .relaxed || q.ord == .rel))
            let a ← baseF q.space f.a; let b ← atomB op q.b64 f.b
            some (.red g op q a b)
  | 8 => do unused f.d; unused f.a; unused f.b; unused f.c; need (f.m / 8 == 0)
            let sc ← Scope.ofFence f.m; some (.fence g sc)
  | 9 => do unused f.d; unused f.a; unused f.b; unused f.c; need (f.m / 16 == 0)
            some (.fencea g (BitVec.ofNat 4 f.m))
  | 10 => do unused f.d; unused f.c; need (f.m / 2 == 0)
             let a ← pairF f.a; let b ← regF f.b; some (.cwb g (flag f.m) a b)
  | 11 => do unused f.d; unused f.c; need (f.m / 2 == 0)
             let a ← pairF f.a; let b ← regF f.b; some (.cinv g (flag f.m) a b)
  | 12 => do unused f.d; need (f.m / 2 == 0); let a ← pairF f.a
             some (.cpf g (flag f.m) a (BitVec.ofNat 20 f.bc))
  | 13 => do unused f.d; unused f.a; unused f.c; need (f.m == 0); let b ← regF f.b; some (.slcdr g b)
  | _ => none

/-- A run of `n` registers from a base (R390): within v767 or h31, `vz` for at most a pair. -/
def runF (n k : Nat) : Option Reg :=
  if k + n ≤ 768 then some (.v k)
  else if 960 ≤ k ∧ k + n ≤ 992 then some (.h (k - 960))
  else if k = 1023 ∧ n ≤ 2 then some .z else none

/-- A copy-form instruction with a run of `n` registers at B (R230, R303, R304). -/
def decodeCopy (f : Fields) (n : Nat) (k : Space → Space → Reg → Reg → Reg → BitVec 10 → Option Instr) :
    Option Instr := do
  let ds ← Space.ofCode (mbits f.m 5 3)
  let ss ← Space.ofCode (mbits f.m 2 3)
  need (ds != .ln && ss != .ln)
  let d ← baseF ds f.d
  let a ← baseF ss f.a
  let b ← runF n f.b
  k ds ss d a b (BitVec.ofNat 10 f.c)

/-- Group 5, streamer and fabric (Table 14-4). -/
def decodeGroup5 (k : Nat) (f : Fields) (g : Guard) : Option Instr :=
  match k with
  | 0 => do need (mbits f.m 0 2 == 0); decodeCopy f 1 fun ds ss d a b o => some (.cpy g ds ss d a b o)
  | 1 => do need (mbits f.m 0 2 == 0); decodeCopy f 3 fun ds ss d a b o => some (.cpyt g ds ss d a b o)
  | 2 => do need (mbits f.m 0 2 == 0); decodeCopy f 2 fun ds ss d a b o => some (.cpyx g ds ss d a b o)
  | 3 => do need (mbits f.m 0 2 == 0); decodeCopy f 2 fun ds ss d a b o => some (.cpyo g ds ss d a b o)
  | 4 => do unused f.a; unused f.b; unused f.c; need (f.m == 0); let d ← regF f.d; some (.cseal g d)
  | 5 => do unused f.d; unused f.b; unused f.c; need (f.m == 0); let a ← regF f.a; some (.cwait g a)
  | 6 => do unused f.d; unused f.c; need (f.m == 0); let a ← pairF f.a; let b ← regF f.b; some (.shopen g a b)
  | 7 => do unused f.d; unused f.c; need (f.m / 4 == 0); let sc ← Scope.ofCode f.m
            let a ← pairF f.a; let b ← regF f.b; some (.publish g sc a b)
  | 8 => do unused f.d; unused f.c; need (f.m == 0); let a ← pairF f.a; let b ← regF f.b; some (.shdrop g a b)
  | 9 => do need (mbits f.m 1 1 == 0 && mbits f.m 5 3 == 0)
            let t := flag (mbits f.m 0 1)
            decodeCopy f (if t then 2 else 1) fun _ ss d a b o => some (.put g ss t d a b o)
  | 10 => do need (mbits f.m 1 1 == 0 && mbits f.m 2 3 == 0)
             let t := flag (mbits f.m 0 1)
             decodeCopy f (if t then 2 else 1) fun ds _ d a b o => some (.get g ds t d a b o)
  | 11 => do unused f.d; need (f.m == 0)
             let a ← pairF f.a; let b ← runF 2 f.b; let c ← regF f.c; some (.mcast g a b c)
  | 12 => do need (f.m == 0)
             let d ← regF f.d; let a ← pairF f.a; let b ← regF f.b; let c ← regF f.c; some (.lreg g d a b c)
  | 13 => do unused f.d; unused f.a; unused f.c; need (f.m == 0); let b ← regF f.b; some (.ldereg g b)
  | 14 => do unused f.d
             let a ← pairF f.a; let b ← regF f.b; let c ← regF f.c; some (.send g (f.m + 1) a b c)
  | 15 => do let d ← regF f.d; let a ← pairF f.a; let b ← regF f.b; let c ← pairF f.c
             some (.rpost g (f.m + 1) d a b c)
  | 16 => do unused f.b; unused f.c; need (f.m == 0); let d ← pairF f.d; let a ← regF f.a; some (.rpoll g d a)
  | 17 => do unused f.d; unused f.b; unused f.c; need (f.m == 0); let a ← regF f.a; some (.coll g a)
  | 18 => do unused f.d; unused f.c; need (f.m / 8 == 0)
             let a ← pairF f.a; let b ← pairF f.b; let sc ← Scope.ofCode (mbits f.m 1 2)
             if f.m % 2 = 1 then some (.skmrg g a b (some sc))
             else do need (f.m == 0); some (.skmrg g a b none)
  | 19 => do need (f.m == 0)
             let d ← regF f.d; let a ← regF f.a; let b ← pairF f.b; let c ← pairF f.c; some (.tarm g d a b c)
  | 20 => do unused f.d; unused f.c; need (f.m == 0); let a ← regF f.a; let b ← pairF f.b; some (.tadd g a b)
  | 21 => do unused f.b; unused f.c; need (f.m == 0); let d ← pairF f.d; let a ← regF f.a; some (.trd g d a)
  | 22 => do unused f.b; unused f.c; need (f.m == 0); let d ← regF f.d; let a ← regF f.a; some (.tdisarm g d a)
  | _ => none

/-- The modifiers of a matrix product (R230). -/
def mmaF (m : Nat) : MmaMod :=
  { reuse := flag (mbits m 7 1), sa := mbits m 4 3, sb := mbits m 1 3, zero := flag (mbits m 0 1) }

/-- Group 6, matrix (Table 16-1). -/
def decodeGroup6 (k : Nat) (f : Fields) (g : Guard) : Option Instr :=
  match k with
  | 0 => do unused f.c; let t ← tileF f.d; let a ← regF f.a; let b ← regF f.b; some (.mma g t a b (mmaF f.m))
  | 1 => do let t ← tileF f.d; let a ← regF f.a; let b ← regF f.b; let c ← regF f.c
            some (.mmas g t a b c (mmaF f.m))
  | 2 => do unused f.c; let t ← tileF f.d; let a ← regF f.a; let b ← regF f.b; some (.mmac g t a b (mmaF f.m))
  | 3 => do unused f.a; unused f.b; unused f.c; need (f.m == 0); let t ← tileF f.d; some (.mzero g t)
  | 4 => do unused f.b; unused f.c; need (f.m / 4 == 0)
            let d ← runF 16 f.d; let t ← tileF f.a; some (.mrd g d t f.m)
  | 5 => do unused f.b; unused f.c; need (f.m / 4 == 0)
            let t ← tileF f.d; let a ← runF 16 f.a; some (.mwr g t a f.m)
  | 6 => do unused f.b; unused f.c; need (f.m == 0); let t ← tileF f.d; let a ← regF f.a; some (.mld g t a)
  | 7 => do unused f.b; unused f.c; need (f.m / 32 == 0)
            let gl := flag (mbits f.m 0 1)
            let cvt := flag (mbits f.m 1 1)
            let t ← tileF f.d; let a ← regOrEven gl f.a; some (.mst g t gl cvt (mbits f.m 2 3) a)
  | 8 => do unused f.d; unused f.a; unused f.b; unused f.c; need (f.m == 0); some (.mrel g)
  | _ => none

/-- The weight operand of `SKINS` and `SKDEL` (R331): C is 1023 without `.w`. -/
def weightF (w : Bool) (n : Nat) : Option Reg :=
  if w then regF n else do unused n; some .z

/-- Group 7, sketch (Table 18-1). -/
def decodeGroup7 (k : Nat) (f : Fields) (g : Guard) : Option Instr :=
  match k with
  | 0 => do need (f.m / 2 == 0)
            let d ← regF f.d; let a ← pairF f.a; let b ← pairF f.b; let c ← weightF (flag f.m) f.c
            some (.skins g d a b c (flag f.m))
  | 1 => do need (f.m / 2 == 0)
            let d ← regF f.d; let a ← pairF f.a; let b ← pairF f.b; let c ← weightF (flag f.m) f.c
            some (.skdel g d a b c (flag f.m))
  | 2 => do need (f.m == 0)
            let d ← regF f.d; let a ← pairF f.a; let b ← pairF f.b; let c ← regF f.c; some (.skqry g d a b c)
  | 3 => do need (f.m == 0); unused f.b
            let d ← pairF f.d; let a ← pairF f.a; let c ← regF f.c; some (.skcard g d a c)
  | 4 => do need (f.m == 0)
            let d ← pairF f.d; let a ← pairF f.a; let b ← regF f.b; let c ← regF f.c; some (.skrank g d a b c)
  | 5 => do need (f.m == 0)
            let d ← regF f.d; let a ← pairF f.a; let b ← regF f.b; let c ← regF f.c; some (.skqtl g d a b c)
  | 6 => do unused f.c; need (f.m / 16 == 0)
            let d ← pairF f.d; let a ← pairF f.a; let b ← pairF f.b
            let _ ← runF (2 * (f.m + 1)) f.a
            some (.skhash g d a b (f.m + 1))
  | 7 => do unused f.d; unused f.b; unused f.c; need (f.m / 4 == 0)
            let a ← pairF f.a; let sc ← Scope.ofCode f.m; some (.skfold g sc a)
  | 8 => do unused f.d; unused f.b; unused f.c; need (f.m / 4 == 0)
            let a ← pairF f.a; let sc ← Scope.ofCode f.m; some (.skclr g sc a)
  | 9 => do unused f.b; unused f.c; need (f.m / 8 == 0)
            let d ← pairF f.d; let a ← pairF f.a; some (.skstat g d a f.m)
  | 10 => do unused f.d; unused f.b; unused f.c; need (f.m == 0); let a ← pairF f.a; some (.skinv g a)
  | _ => none

/-- How many opcodes each group assigns, from index 0 (Table 11-9). -/
def groupSize : Nat → Nat
  | 0 => 27 | 1 => 42 | 2 => 19 | 3 => 28 | 4 => 14 | 5 => 23 | 6 => 9 | 7 => 11 | _ => 0

/-- Whether an opcode is assigned (R233). -/
def opAssigned (op : Nat) : Bool := op % 64 < groupSize (op / 64)

/-- The instruction of an assigned opcode, none when its operands are illegal (check 3 of R229). -/
def decodeBody (f : Fields) (g : Guard) : Option Instr :=
  match f.op / 64 with
  | 0 => decodeGroup0 (f.op % 64) f g
  | 1 => decodeGroup1 (f.op % 64) f g
  | 2 => decodeGroup2 (f.op % 64) f g
  | 3 => decodeGroup3 (f.op % 64) f g
  | 4 => decodeGroup4 (f.op % 64) f g
  | 5 => decodeGroup5 (f.op % 64) f g
  | 6 => decodeGroup6 (f.op % 64) f g
  | 7 => decodeGroup7 (f.op % 64) f g
  | _ => none

/-- The decoder on fields. -/
def decodeFields (f : Fields) : Except DecodeError Instr :=
  if opAssigned f.op then
    match guardF f.pg f.pn with
    | none => .error (.illegalOperand f.op)
    | some g =>
      match decodeBody f g with
      | some i => .ok i
      | none => .error (.illegalOperand f.op)
  else .error (.illegalOpcode f.op)

/-- The decoder: total on every word, refusing by the check that fails (R229, checks 1 and 3). -/
def decode (w : DWord) : Except DecodeError Instr := decodeFields (fieldsOf w.toNat)

/-- The group of a word, OP[8:6] (R227). -/
def wordGroup (w : DWord) : Nat := w.toNat / 2 ^ 61

/-- The instruction the decoder reads from a word given as a number (the opcode table's numbering: one 64-bit
word, bits above `nbits` zero). -/
def decodeTableWord (nbits w : Nat) : Option Instr :=
  match decode (BitVec.ofNat 64 (w % 2 ^ nbits)) with
  | .ok i => some i
  | .error _ => none

/-! ### The encoder -/

def Guard.pg : Guard → Nat
  | .always => 63 | .pred n _ => n
def Guard.pn : Guard → Nat
  | .always => 0 | .pred _ neg => bit neg
/-- The field of a vector register (Table 11-4). -/
def Reg.field : Reg → Nat
  | .v n => n | .h n => 960 + n | .z => 1023
/-- The field of a pair (Table 11-4). -/
def Pair.field : Pair → Nat
  | .v n => n | .h n => 960 + n | .z => 1023

/-- Fields of a word from its opcode, guard, D, A, the 20-bit value of B and C, and M. -/
def mkBC (op : Nat) (g : Guard) (d a bc m : Nat) : Fields :=
  { op := op, pg := g.pg, pn := g.pn, d := d, a := a, b := bc / 1024, c := bc % 1024, m := m }

/-- Fields of a word from its opcode, guard, D, A, B, C and M. -/
def mk (op : Nat) (g : Guard) (d a b c m : Nat) : Fields :=
  { op := op, pg := g.pg, pn := g.pn, d := d, a := a, b := b, c := c, m := m }

/-- Fields of an ALU-form word with operand B (R230). -/
def mkB (op : Nat) (g : Guard) (d a : Nat) (b : SrcB) (m : Nat) : Fields :=
  match b with
  | .reg r => mk op g d a r.field 1023 m
  | .win w j => mkBC op g d a (w * 2 ^ 17 + j) (64 + m)
  | .imm x => mkBC op g d a x.toNat (128 + m)

/-- Fields of an ALU-form word with a 64-bit operand B. -/
def mkB64 (op : Nat) (g : Guard) (d a : Nat) (b : SrcB64) (m : Nat) : Fields :=
  match b with
  | .pair r => mk op g d a r.field 1023 m
  | .win w j => mkBC op g d a (w * 2 ^ 17 + j) (64 + m)
  | .imm x => mkBC op g d a x.toNat (128 + m)

/-- The modifier bits of R266. -/
def FMod.code (m : FMod) : Nat := m.rnd.code + 4 * bit m.sat + 8 * bit m.na + 16 * bit m.nb + 32 * bit m.nc
/-- The modifier bits of R281. -/
def HMod.code (m : HMod) : Nat := m.rnd.code + 4 * bit m.sat + 8 * bit m.bf
/-- The modifier bits of Table 14-2. -/
def AtomMod.code (m : AtomMod) : Nat :=
  64 * m.space.code + 32 * bit m.b64 + 8 * m.ord.code + 2 * m.scope.code
/-- The modifier bits of the matrix form. -/
def MmaMod.code (m : MmaMod) : Nat := 128 * bit m.reuse + 16 * m.sa + 2 * m.sb + bit m.zero

/-- The fields of an instruction; none for an event of the device, which is no word. -/
def encodeFields : Instr → Option Fields
  | .nop g => some (mk 0x000 g 1023 1023 1023 1023 0)
  | .bra g o => some (mkBC 0x001 g 1023 1023 o.toNat 0)
  | .brx g a => some (mk 0x002 g 1023 a.field 1023 1023 0)
  | .call g d o => some (mkBC 0x003 g d.field 1023 o.toNat 0)
  | .callx g d a => some (mk 0x004 g d.field a.field 1023 1023 0)
  | .ret g a => some (mk 0x005 g 1023 a.field 1023 1023 0)
  | .exit g => some (mk 0x006 g 1023 1023 1023 1023 0)
  | .yield g => some (mk 0x007 g 1023 1023 1023 1023 0)
  | .wait g c n => some (mk 0x008 g 1023 1023 1023 1023 (8 * n + c.code))
  | .bara g d c b => some (mk 0x009 g d.field 1023 c.field 1023 b)
  | .barw g a b => some (mk 0x00A g 1023 a.field 1023 1023 b)
  | .bars g c b => some (mk 0x00B g 1023 1023 c.field 1023 b)
  | .rput g n st => some (mk 0x00C g 1023 1023 1023 1023 (16 * st + n))
  | .rget g n st ph => some (mk 0x00D g 1023 1023 1023 1023 (16 * st + 8 * bit ph + n))
  | .rrel g n st => some (mk 0x00E g 1023 1023 1023 1023 (16 * st + n))
  | .sread g d sr => some (mk 0x00F g d.field sr 1023 1023 0)
  | .swrite g sr b => some (mk 0x010 g 1023 sr b.field 1023 0)
  | .reggrow g d n nw => some (mk 0x011 g d.field 1023 1023 1023 (32 * bit nw + n))
  | .regshrink g n => some (mk 0x012 g 1023 1023 1023 1023 n)
  | .tagq g d a => some (mk 0x013 g d.field a.field 1023 1023 0)
  | .launch g d a => some (mk 0x014 g d.field a.field 1023 1023 0)
  | .lwait g d a nb => some (mk 0x015 g d.field a.field 1023 1023 (bit nb))
  | .trap g n => some (mk 0x016 g 1023 1023 1023 1023 n)
  | .brk g n => some (mk 0x017 g 1023 1023 1023 1023 n)
  | .tret g k => some (mk 0x018 g 1023 1023 1023 1023 (bit k))
  | .tinfo g d j => some (mk 0x019 g d.field 1023 1023 1023 j)
  | .tlbinv g a b l => some (mk 0x01A g 1023 a.field b.field 1023 (bit l))
  | .iadd g d a b k => some (mkB 0x040 g d.field a.field b k.code)
  | .isub g d a b k => some (mkB 0x041 g d.field a.field b k.code)
  | .imul g d a b => some (mkB 0x042 g d.field a.field b 0)
  | .imulh g d a b u => some (mkB 0x043 g d.field a.field b (bit u))
  | .imad g d a b c => some (mk 0x044 g d.field a.field b.field c.field 0)
  | .imadw g d a b c u => some (mk 0x045 g d.field a.field b.field c.field (bit u))
  | .iadd64 g d a b => some (mkB64 0x046 g d.field a.field b 0)
  | .isub64 g d a b => some (mkB64 0x047 g d.field a.field b 0)
  | .imin g d a b u => some (mkB 0x048 g d.field a.field b (bit u))
  | .imax g d a b u => some (mkB 0x049 g d.field a.field b (bit u))
  | .iabs g d a s => some (mk 0x04A g d.field a.field 1023 1023 (bit s))
  | .ineg g d a s => some (mk 0x04B g d.field a.field 1023 1023 (bit s))
  | .isat g d a r => some (mk 0x04C g d.field a.field 1023 1023 r.code)
  | .idiv g d a b u => some (mkB 0x04D g d.field a.field b (bit u))
  | .irem g d a b u => some (mkB 0x04E g d.field a.field b (bit u))
  | .idot4 g d a b c ua ub => some (mk 0x04F g d.field a.field b.field c.field (bit ua + 2 * bit ub))
  | .idot2 g d a b c ua ub => some (mk 0x050 g d.field a.field b.field c.field (bit ua + 2 * bit ub))
  | .lea g d a b sh sx => some (mkB 0x051 g d.field a.field b (sh + 32 * bit sx))
  | .and g d a b => some (mkB 0x052 g d.field a.field b 0)
  | .or g d a b => some (mkB 0x053 g d.field a.field b 0)
  | .xor g d a b => some (mkB 0x054 g d.field a.field b 0)
  | .andn g d a b => some (mkB 0x055 g d.field a.field b 0)
  | .not g d a => some (mk 0x056 g d.field a.field 1023 1023 0)
  | .lop3 g d a b l => some (mk 0x057 g d.field a.field b.field l.toNat 0)
  | .shl g d a b => some (mkB 0x058 g d.field a.field b 0)
  | .shr g d a b => some (mkB 0x059 g d.field a.field b 0)
  | .sar g d a b => some (mkB 0x05A g d.field a.field b 0)
  | .rotl g d a b => some (mkB 0x05B g d.field a.field b 0)
  | .funl g d a b c => some (mk 0x05C g d.field a.field b.field c.field 0)
  | .funr g d a b c => some (mk 0x05D g d.field a.field b.field c.field 0)
  | .popc g d a => some (mk 0x05E g d.field a.field 1023 1023 0)
  | .clz g d a => some (mk 0x05F g d.field a.field 1023 1023 0)
  | .ctz g d a => some (mk 0x060 g d.field a.field 1023 1023 0)
  | .brev g d a => some (mk 0x061 g d.field a.field 1023 1023 0)
  | .bfx g d a b sx => some (mkB 0x062 g d.field a.field b (bit sx))
  | .bfi g d a b c => some (mk 0x063 g d.field a.field b.field c.field 0)
  | .prmt g d a b c => some (mk 0x064 g d.field a.field b.field c.field 0)
  | .isetp g pd a b cc u => some (mkB 0x065 g pd a.field b (cc.code + 8 * bit u))
  | .sel g d a b pc => some (mkB 0x066 g d.field a.field b pc)
  | .mov g d b => some (mkB 0x067 g d.field 1023 b 0)
  | .movi g d x =>
    some (mkBC 0x068 g d.field (x.toNat / 2 ^ 20 % 1024) (x.toNat % 2 ^ 20) (128 + x.toNat / 2 ^ 30))
  | .movu g d b => some (mk 0x069 g d.field 1023 b.field 1023 0)
  | .plop3 g pd pa pb l => some (mk 0x080 g pd pa pb l.toNat 0)
  | .p2v g d pa => some (mk 0x081 g d.field pa 1023 1023 0)
  | .v2p g pd a m => some (mk 0x082 g pd a.field 1023 1023 (bit m))
  | .vote g pd pa m => some (mk 0x083 g pd pa 1023 1023 m.code)
  | .pcnt g d pa => some (mk 0x084 g d.field pa 1023 1023 0)
  | .elect g pd => some (mk 0x085 g pd 1023 1023 1023 0)
  | .shfl g d a b m => some (mkB 0x086 g d.field a.field b m.code)
  | .bcast g d a b => some (mkB 0x087 g d.field a.field b 0)
  | .redux g d a op => some (mk 0x088 g d.field a.field 1023 1023 op.code)
  | .scan g d a op ex => some (mk 0x089 g d.field a.field 1023 1023 (op.code + 16 * bit ex))
  | .match g d a b64 => some (mk 0x08A g d.field a.field 1023 1023 (bit b64))
  | .cvtif g d a r u q s =>
    some (mk 0x08B g d.field a.field 1023 1023 (r.code + 4 * bit u + 8 * q.code + 32 * bit s))
  | .cvtfi g d a r u q s =>
    some (mk 0x08C g d.field a.field 1023 1023 (r.code + 4 * bit u + 8 * q.code + 32 * bit s))
  | .cvtff g d a r q p => some (mk 0x08D g d.field a.field 1023 1023 (r.code + 4 * q.code + 16 * p.code))
  | .cvtn g d a b s => some (mkB 0x08E g d.field a.field b s)
  | .cvtw g d a b s => some (mkB 0x08F g d.field a.field b s)
  | .cbdec g d a q hi => some (mk 0x090 g d.field a.field 1023 1023 (q.code + 4 * bit hi))
  | .scalq g d a s => some (mk 0x091 g d.field a.field 1023 1023 s)
  | .amax g d a b w q => some (mkB 0x092 g d.field a.field b (bit w + 2 * q.code))
  | .fadd g d a b m => some (mkB 0x0C0 g d.field a.field b m.code)
  | .fsub g d a b m => some (mkB 0x0C1 g d.field a.field b m.code)
  | .fmul g d a b m => some (mkB 0x0C2 g d.field a.field b m.code)
  | .ffma g d a b c m => some (mk 0x0C3 g d.field a.field b.field c.field m.code)
  | .fmin g d a b => some (mkB 0x0C4 g d.field a.field b 0)
  | .fmax g d a b => some (mkB 0x0C5 g d.field a.field b 0)
  | .fsetp g pd a b cc => some (mkB 0x0C6 g pd a.field b cc.code)
  | .fclass g d a => some (mk 0x0C7 g d.field a.field 1023 1023 0)
  | .frnd g d a r => some (mk 0x0C8 g d.field a.field 1023 1023 r.code)
  | .frcp g d a => some (mk 0x0C9 g d.field a.field 1023 1023 0)
  | .frsq g d a => some (mk 0x0CA g d.field a.field 1023 1023 0)
  | .fsqrt g d a r => some (mk 0x0CB g d.field a.field 1023 1023 r.code)
  | .fdiv g d a b r => some (mkB 0x0CC g d.field a.field b r.code)
  | .fexpf g d a => some (mk 0x0CD g d.field a.field 1023 1023 0)
  | .flogf g d a => some (mk 0x0CE g d.field a.field 1023 1023 0)
  | .fsin g d a => some (mk 0x0CF g d.field a.field 1023 1023 0)
  | .fcos g d a => some (mk 0x0D0 g d.field a.field 1023 1023 0)
  | .fscale g d a b r => some (mkB 0x0D1 g d.field a.field b r.code)
  | .fexpo g d a => some (mk 0x0D2 g d.field a.field 1023 1023 0)
  | .fmant g d a => some (mk 0x0D3 g d.field a.field 1023 1023 0)
  | .hadd2 g d a b m => some (mkB 0x0D4 g d.field a.field b m.code)
  | .hmul2 g d a b m => some (mkB 0x0D5 g d.field a.field b m.code)
  | .hfma2 g d a b c m => some (mk 0x0D6 g d.field a.field b.field c.field m.code)
  | .hmnmx2 g d a b mx bf => some (mkB 0x0D7 g d.field a.field b (bit mx + 8 * bit bf))
  | .fdot2 g d a b c m => some (mk 0x0D8 g d.field a.field b.field c.field m.code)
  | .dadd g d a b m => some (mkB64 0x0D9 g d.field a.field b m.code)
  | .dmul g d a b m => some (mkB64 0x0DA g d.field a.field b m.code)
  | .dfma g d a b c m => some (mk 0x0DB g d.field a.field b.field c.field m.code)
  | .ld g sp w d a o => some (mkBC 0x100 g d.field a.field o.toNat (32 * sp.code + 4 * w.code))
  | .st g sp w f d a o => some (mkBC 0x101 g d.field a.field o.toNat (32 * sp.code + 4 * w.code + bit f))
  | .ldk g d a w b64 => some (mk 0x102 g d.field a.field 1023 1023 (w + 8 * bit b64))
  | .ldacq g sp w sc d a o => some (mkBC 0x103 g d.field a.field o.toNat (32 * sp.code + 4 * w.code + sc.code))
  | .strel g sp w sc d a o => some (mkBC 0x104 g d.field a.field o.toNat (32 * sp.code + 4 * w.code + sc.code))
  | .atom g op m d a b => some (mk 0x105 g d.field a.field b.field op.code m.code)
  | .atomc g m d a b c => some (mk 0x106 g d.field a.field b.field c.field m.code)
  | .red g op m a b => some (mk 0x107 g 1023 a.field b.field op.code m.code)
  | .fence g sc => some (mk 0x108 g 1023 1023 1023 1023 sc.fence)
  | .fencea g k => some (mk 0x109 g 1023 1023 1023 1023 k.toNat)
  | .cwb g l a b => some (mk 0x10A g 1023 a.field b.field 1023 (bit l))
  | .cinv g l a b => some (mk 0x10B g 1023 a.field b.field 1023 (bit l))
  | .cpf g l a o => some (mkBC 0x10C g 1023 a.field o.toNat (bit l))
  | .slcdr g b => some (mk 0x10D g 1023 1023 b.field 1023 0)
  | .cpy g ds ss d a b o => some (mk 0x140 g d.field a.field b.field o.toNat (32 * ds.code + 4 * ss.code))
  | .cpyt g ds ss d a b o => some (mk 0x141 g d.field a.field b.field o.toNat (32 * ds.code + 4 * ss.code))
  | .cpyx g ds ss d a b o => some (mk 0x142 g d.field a.field b.field o.toNat (32 * ds.code + 4 * ss.code))
  | .cpyo g ds ss d a b o => some (mk 0x143 g d.field a.field b.field o.toNat (32 * ds.code + 4 * ss.code))
  | .cseal g d => some (mk 0x144 g d.field 1023 1023 1023 0)
  | .cwait g a => some (mk 0x145 g 1023 a.field 1023 1023 0)
  | .shopen g a b => some (mk 0x146 g 1023 a.field b.field 1023 0)
  | .publish g sc a b => some (mk 0x147 g 1023 a.field b.field 1023 sc.code)
  | .shdrop g a b => some (mk 0x148 g 1023 a.field b.field 1023 0)
  | .put g ss t d a b o => some (mk 0x149 g d.field a.field b.field o.toNat (4 * ss.code + bit t))
  | .get g ds t d a b o => some (mk 0x14A g d.field a.field b.field o.toNat (32 * ds.code + bit t))
  | .mcast g a b c => some (mk 0x14B g 1023 a.field b.field c.field 0)
  | .lreg g d a b c => some (mk 0x14C g d.field a.field b.field c.field 0)
  | .ldereg g b => some (mk 0x14D g 1023 1023 b.field 1023 0)
  | .send g n a b c => some (mk 0x14E g 1023 a.field b.field c.field (n - 1))
  | .rpost g n d a b c => some (mk 0x14F g d.field a.field b.field c.field (n - 1))
  | .rpoll g d a => some (mk 0x150 g d.field a.field 1023 1023 0)
  | .coll g a => some (mk 0x151 g 1023 a.field 1023 1023 0)
  | .skmrg g a b none => some (mk 0x152 g 1023 a.field b.field 1023 0)
  | .skmrg g a b (some sc) => some (mk 0x152 g 1023 a.field b.field 1023 (1 + 2 * sc.code))
  | .tarm g d a b c => some (mk 0x153 g d.field a.field b.field c.field 0)
  | .tadd g a b => some (mk 0x154 g 1023 a.field b.field 1023 0)
  | .trd g d a => some (mk 0x155 g d.field a.field 1023 1023 0)
  | .tdisarm g d a => some (mk 0x156 g d.field a.field 1023 1023 0)
  | .mma g t a b m => some (mk 0x180 g t a.field b.field 1023 m.code)
  | .mmas g t a b c m => some (mk 0x181 g t a.field b.field c.field m.code)
  | .mmac g t a b m => some (mk 0x182 g t a.field b.field 1023 m.code)
  | .mzero g t => some (mk 0x183 g t 1023 1023 1023 0)
  | .mrd g d t q => some (mk 0x184 g d.field t 1023 1023 q)
  | .mwr g t a q => some (mk 0x185 g t a.field 1023 1023 q)
  | .mld g t a => some (mk 0x186 g t a.field 1023 1023 0)
  | .mst g t gl cvt s a => some (mk 0x187 g t a.field 1023 1023 (4 * s + 2 * bit cvt + bit gl))
  | .mrel g => some (mk 0x188 g 1023 1023 1023 1023 0)
  | .skins g d a b c w => some (mk 0x1C0 g d.field a.field b.field c.field (bit w))
  | .skdel g d a b c w => some (mk 0x1C1 g d.field a.field b.field c.field (bit w))
  | .skqry g d a b c => some (mk 0x1C2 g d.field a.field b.field c.field 0)
  | .skcard g d a c => some (mk 0x1C3 g d.field a.field 1023 c.field 0)
  | .skrank g d a b c => some (mk 0x1C4 g d.field a.field b.field c.field 0)
  | .skqtl g d a b c => some (mk 0x1C5 g d.field a.field b.field c.field 0)
  | .skhash g d a b n => some (mk 0x1C6 g d.field a.field b.field 1023 (n - 1))
  | .skfold g sc a => some (mk 0x1C7 g 1023 a.field 1023 1023 sc.code)
  | .skclr g sc a => some (mk 0x1C8 g 1023 a.field 1023 1023 sc.code)
  | .skstat g d a j => some (mk 0x1C9 g d.field a.field 1023 1023 j)
  | .skinv g a => some (mk 0x1CA g 1023 a.field 1023 1023 0)
  | _ => none

/-- The word of an instruction; none for an event of the device. -/
def encode (i : Instr) : Option DWord := (encodeFields i).map fun f => BitVec.ofNat 64 f.pack

end Sys2Proof
end

