-- ==== Sys2Proof/Machine/Bits.lean ====
section
/-! DEFINITION. Bit fields, sign extension, byte order and the lane results of the integer and logic
instructions (R235, R257 to R260). -/

namespace Sys2Proof.Machine

/-- Bits `lo` upward of a number, `n` of them. -/
def field (x lo n : Nat) : Nat := x / 2 ^ lo % 2 ^ n

/-- A number with the bits from `lo` upward, `n` of them, replaced. -/
def setField (x lo n v : Nat) : Nat := x - field x lo n * 2 ^ lo + (v % 2 ^ n) * 2 ^ lo

/-- An n-bit number read as two's complement (R235). -/
def sextN (x n : Nat) : Int :=
  let y := x % 2 ^ n
  if y < 2 ^ (n - 1) then (y : Int) else (y : Int) - 2 ^ n

/-- An integer taken modulo 2^n. -/
def wrapN (n : Nat) (x : Int) : Nat := (x % 2 ^ n).toNat

/-- A word of an exact integer, modulo 2^32. -/
def wordOf (x : Int) : Word := BitVec.ofInt 32 x

/-- The value clamped to a range. -/
def clampInt (lo hi x : Int) : Int := if x < lo then lo else if hi < x then hi else x

/-- Little-endian value of a list of bytes (R2). -/
def leNat : List Byte → Nat
  | [] => 0
  | b :: bs => b.toNat + 256 * leNat bs

/-- The low `n` bytes of a number, little-endian (R2). -/
def leBytes : Nat → Nat → List Byte
  | 0, _ => []
  | n + 1, x => BitVec.ofNat 8 x :: leBytes n (x / 256)

/-- The low and high words of a 64-bit value. -/
def loWord (x : DWord) : Word := x.setWidth 32
def hiWord (x : DWord) : Word := (x >>> 32).setWidth 32
/-- A 64-bit value of its low and high words. -/
def joinWords (lo hi : Word) : DWord := hi ++ lo

/-- A 20-bit immediate as a 32-bit word (R235). -/
def immWord (x : BitVec 20) : Word := x.signExtend 32
/-- A 20-bit immediate taken to 64 bits (R257). -/
def immDWord (x : BitVec 20) : DWord := x.signExtend 64

/-- Count of one bits among the low `n`. -/
def popN : Nat → Nat → Nat
  | 0, _ => 0
  | n + 1, x => x % 2 + popN n (x / 2)

/-- popc of a word. -/
def popc (x : Word) : Nat := popN 32 x.toNat

/-- Leading zeros of an n-bit number. -/
def clzN (n x : Nat) : Nat := if x = 0 then n else n - 1 - Nat.log2 x

/-- Trailing zeros of a number, `n` when the low n bits are zero. -/
def ctzN : Nat → Nat → Nat
  | 0, _ => 0
  | n + 1, x => if x % 2 = 1 then 0 else 1 + ctzN n (x / 2)

/-- The low n bits in the opposite order. -/
def brevN : Nat → Nat → Nat
  | 0, _ => 0
  | n + 1, x => x % 2 * 2 ^ n + brevN n (x / 2)

/-- Byte k of a number. -/
def byteAt (x k : Nat) : Nat := x / 256 ^ k % 256

/-! ### Lane results of group 1 (Table 12-6) -/

/-- `IADD` (Table 12-6). -/
def laneIadd (k : SatKind) (a b : Word) : Word :=
  match k with
  | .wrap => a + b
  | .sat => wordOf (clampInt (-2 ^ 31) (2 ^ 31 - 1) (a.toInt + b.toInt))
  | .usat => wordOf (clampInt 0 (2 ^ 32 - 1) ((a.toNat : Int) + b.toNat))

/-- `ISUB` (Table 12-6). -/
def laneIsub (k : SatKind) (a b : Word) : Word :=
  match k with
  | .wrap => a - b
  | .sat => wordOf (clampInt (-2 ^ 31) (2 ^ 31 - 1) (a.toInt - b.toInt))
  | .usat => wordOf (clampInt 0 (2 ^ 32 - 1) ((a.toNat : Int) - b.toNat))

/-- `IMULH` (Table 12-6): bits [63:32] of the exact product. -/
def laneImulh (u : Bool) (a b : Word) : Word :=
  if u then BitVec.ofNat 32 (a.toNat * b.toNat / 2 ^ 32) else wordOf (a.toInt * b.toInt / 2 ^ 32)

/-- `IMADW` (Table 12-6). -/
def laneImadw (u : Bool) (a b : Word) (c : DWord) : DWord :=
  (if u then BitVec.ofNat 64 (a.toNat * b.toNat) else BitVec.ofInt 64 (a.toInt * b.toInt)) + c

def laneImin (u : Bool) (a b : Word) : Word :=
  if u then (if a.toNat ≤ b.toNat then a else b) else (if a.toInt ≤ b.toInt then a else b)

def laneImax (u : Bool) (a b : Word) : Word :=
  if u then (if a.toNat ≤ b.toNat then b else a) else (if a.toInt ≤ b.toInt then b else a)

/-- `INEG` (Table 12-6). -/
def laneIneg (sat : Bool) (a : Word) : Word :=
  if sat && a == 0x80000000#32 then 0x7FFFFFFF#32 else -a

/-- `IABS` (Table 12-6). -/
def laneIabs (sat : Bool) (a : Word) : Word := if a.toInt < 0 then laneIneg sat a else a

/-- `ISAT` (Table 12-6). -/
def laneIsat (r : SatRange) (a : Word) : Word :=
  let (lo, hi) : Int × Int := match r with
    | .i8 => (-128, 127)
    | .n8 => (0, 255)
    | .i16 => (-32768, 32767)
    | .n16 => (0, 65535)
    | .n32 => (0, 2 ^ 31 - 1)
  wordOf (clampInt lo hi a.toInt)

/-- `IDIV` (R258): by zero all ones; otherwise the quotient rounded toward zero. -/
def laneIdiv (u : Bool) (a b : Word) : Word :=
  if b = 0 then 0xFFFFFFFF#32
  else if u then BitVec.ofNat 32 (a.toNat / b.toNat)
  else wordOf (a.toInt.tdiv b.toInt)

/-- `IREM` (R258): by zero the dividend; otherwise the remainder with the sign of a. -/
def laneIrem (u : Bool) (a b : Word) : Word :=
  if b = 0 then a
  else if u then BitVec.ofNat 32 (a.toNat % b.toNat)
  else wordOf (a.toInt.tmod b.toInt)

/-- Element k of a word, `w` bits wide, signed unless `u`. -/
def elemInt (u : Bool) (w : Nat) (x : Word) (k : Nat) : Int :=
  let y := field x.toNat (w * k) w
  if u then y else sextN y w

/-- `IDOT4` and `IDOT2` (Table 12-6): `n` elements of `w` bits. -/
def laneIdot (n w : Nat) (ua ub : Bool) (a b c : Word) : Word :=
  wordOf (c.toInt + ((List.range n).map fun k => elemInt ua w a k * elemInt ub w b k).foldl (· + ·) 0)

/-- `LEA` (Table 12-6). -/
def laneLea (sh : Nat) (sx : Bool) (a : DWord) (b : Word) : DWord :=
  a + ((if sx then b.signExtend 64 else b.setWidth 64) <<< sh)

/-- `LOP3` (Table 12-6): bit k is bit 4*d + 2*b + a of the table. -/
def laneLop3 (lut : BitVec 8) (a b d : Word) : Word :=
  BitVec.ofNat 32 ((List.range 32).foldl (fun acc k =>
    acc + (if lut.getLsbD (4 * (d.getLsbD k).toNat + 2 * (b.getLsbD k).toNat + (a.getLsbD k).toNat)
      then 2 ^ k else 0)) 0)

/-- Shifts (Table 12-6): a count of 32 or more clears, or fills with the sign. -/
def laneShl (a b : Word) : Word := if b.toNat ≥ 32 then 0 else a <<< b.toNat
def laneShr (a b : Word) : Word := if b.toNat ≥ 32 then 0 else a >>> b.toNat
def laneSar (a b : Word) : Word := a.sshiftRight (min b.toNat 31)
def laneRotl (a b : Word) : Word := a.rotateLeft (b.toNat % 32)
def laneFunl (a b c : Word) : Word := (((a ++ b : DWord) <<< (c.toNat % 32)) >>> 32).setWidth 32
def laneFunr (a b c : Word) : Word := ((a ++ b : DWord) >>> (c.toNat % 32)).setWidth 32

/-- `BFX` (R259). -/
def laneBfx (sx : Bool) (a b : Word) : Word :=
  let pos := field b.toNat 0 5
  let len := min (field b.toNat 8 6) 32
  if len = 0 then 0
  else
    let r := a.toNat / 2 ^ pos % 2 ^ len
    if sx then wordOf (sextN r len) else BitVec.ofNat 32 r

/-- `BFI` (R259). -/
def laneBfi (a b c : Word) : Word :=
  let pos := field b.toNat 0 5
  let len := min (field b.toNat 8 6) 32
  let mask : Word := BitVec.ofNat 32 ((2 ^ len - 1) * 2 ^ pos)
  (c &&& ~~~mask) ||| ((a <<< pos) &&& mask)

/-- `PRMT` (R259). -/
def lanePrmt (a b c : Word) : Word :=
  let x := b.toNat * 2 ^ 32 + a.toNat
  BitVec.ofNat 32 ((List.range 4).foldl (fun acc k =>
    let sel := field c.toNat (4 * k) 4
    let y := byteAt x (sel % 8)
    let v := if sel / 8 = 1 then (if y ≥ 128 then 0xFF else 0) else y
    acc + v * 256 ^ k) 0)

/-- Integer comparison (R260). -/
def intCmp (cc : IntCmp) (u : Bool) (a b : Word) : Bool :=
  let lt := if u then decide (a.toNat < b.toNat) else decide (a.toInt < b.toInt)
  match cc with
  | .eq => a == b
  | .ne => a != b
  | .lt => lt
  | .le => lt || a == b
  | .gt => !(lt || a == b)
  | .ge => !lt

end Sys2Proof.Machine
end

