-- ==== Sys2Proof/Machine/Float.lean ====
section
/-! DEFINITION. Exact numbers, the formats of Table 10-1, and the one rounding of R206 to R216. -/

namespace Sys2Proof.Machine

/-- An exact number or a special value: `fin s n d` is (-1)^s * n / d, and `fin s 0 d` a signed zero. -/
inductive Num where
  | nan
  | inf (s : Bool)
  | fin (s : Bool) (n d : Nat)
  deriving DecidableEq, Repr

/-- A floating-point format (Table 10-1): widths, bias, the largest finite encoding, and how specials are held. -/
structure Fmt where
  ebits : Nat
  mbits : Nat
  bias : Nat
  maxEnc : Nat
  /-- the encoding of infinity without its sign, if the format has one -/
  infEnc : Option Nat
  /-- the canonical NaN, if the format has one -/
  nanEnc : Option Nat
  deriving DecidableEq, Repr

def fmtF64 : Fmt := ⟨11, 52, 1023, 0x7FEFFFFFFFFFFFFF, some 0x7FF0000000000000, some 0x7FF8000000000000⟩
def fmtF32 : Fmt := ⟨8, 23, 127, 0x7F7FFFFF, some 0x7F800000, some 0x7FC00000⟩
def fmtF16 : Fmt := ⟨5, 10, 15, 0x7BFF, some 0x7C00, some 0x7E00⟩
def fmtBF16 : Fmt := ⟨8, 7, 127, 0x7F7F, some 0x7F80, some 0x7FC0⟩
def fmtE4M3 : Fmt := ⟨4, 3, 7, 0x7E, none, some 0x7F⟩
def fmtE5M2 : Fmt := ⟨5, 2, 15, 0x7B, some 0x7C, some 0x7E⟩
def fmtE3M2 : Fmt := ⟨3, 2, 3, 0x1F, none, none⟩
def fmtE2M3 : Fmt := ⟨2, 3, 1, 0x1F, none, none⟩
def fmtE2M1 : Fmt := ⟨2, 1, 1, 0x7, none, none⟩

/-- Width of an encoding in bits. -/
def Fmt.width (f : Fmt) : Nat := 1 + f.ebits + f.mbits

/-- The number `m * 2^e`, with sign `s`. -/
def Num.dyadic (s : Bool) (m : Nat) (e : Int) : Num :=
  if 0 ≤ e then .fin s (m * 2 ^ e.toNat) 1 else .fin s m (2 ^ (-e).toNat)

/-- The value of an encoding (R207). -/
def Fmt.value (f : Fmt) (x : Nat) : Num :=
  let s := x / 2 ^ (f.ebits + f.mbits) % 2 == 1
  let mag := x % 2 ^ (f.ebits + f.mbits)
  if mag ≤ f.maxEnc then
    let e := mag / 2 ^ f.mbits
    let m := mag % 2 ^ f.mbits
    if e = 0 then .dyadic s m (1 - (f.bias : Int) - f.mbits)
    else .dyadic s (2 ^ f.mbits + m) ((e : Int) - f.bias - f.mbits)
  else if f.infEnc = some mag then .inf s
  else .nan

/-- How a magnitude is rounded (Table 13-1, Table 10-2). -/
inductive RMode where
  | rn | rz | ru | rd
  | stoch (seed : Nat) (salted : Bool) (index : Nat)
  deriving DecidableEq, Repr

/-- The mode of a rounding field (Table 13-1). -/
def RMode.of : Round → RMode
  | .rn => .rn | .rz => .rz | .ru => .ru | .rd => .rd

/-- The device's one hash, QH64 (R133). -/
def qh64 (x s : Nat) : Nat :=
  let h := (x ^^^ s) % 2 ^ 64
  let h := (h ^^^ (h >>> 31)) * 0xA3B195F42D6C8E57 % 2 ^ 64
  let h := (h ^^^ (h >>> 29)) * 0x6C8E9CF570913A4B % 2 ^ 64
  h ^^^ (h >>> 32)

/-- The floor of log2 of n / d, for nonzero n and d. -/
def log2Ratio (n d : Nat) : Int :=
  let e : Int := (Nat.log2 n : Int) - Nat.log2 d
  if (if 0 ≤ e then d * 2 ^ e.toNat ≤ n else d ≤ n * 2 ^ (-e).toNat) then e else e - 1

/-- The magnitude n / d measured in units of 2^k: whole units, remainder, and the denominator of the remainder. -/
def unitsOf (n d : Nat) (k : Int) : Nat × Nat × Nat :=
  if 0 ≤ k then
    let den := d * 2 ^ k.toNat
    (n / den, n % den, den)
  else
    let num := n * 2 ^ (-k).toNat
    (num / d, num % d, d)

/-- Whether a magnitude of `t + r/den` units is rounded up, for a value of sign `s` (R214, R215). -/
def roundsUp (mode : RMode) (s : Bool) (t r den : Nat) : Bool :=
  match mode with
  | .rn => 2 * r > den || (2 * r == den && t % 2 == 1)
  | .rz => false
  | .ru => !s && r != 0
  | .rd => s && r != 0
  | .stoch seed salted index =>
    let disc := r * 2 ^ 32 / den
    let key := if salted then disc + (index % 2 ^ 32) * 2 ^ 32 else disc
    2 ^ 32 ≤ disc + qh64 key seed / 2 ^ 32

/-- A magnitude rounded to a whole number of units. -/
def roundUnits (mode : RMode) (s : Bool) (n d : Nat) (k : Int) : Nat :=
  let (t, r, den) := unitsOf n d k
  if roundsUp mode s t r den then t + 1 else t

/-- The sign bit of an encoding. -/
def Fmt.signed (f : Fmt) (s : Bool) (mag : Nat) : Nat := if s then 2 ^ (f.ebits + f.mbits) + mag else mag

/-- Whether an overflow of this sign goes to infinity rather than to the largest finite value (Table 10-3). -/
def RMode.overflows (mode : RMode) (s : Bool) : Bool :=
  match mode with
  | .rn => true
  | .rz => false
  | .ru => !s
  | .rd => s
  | .stoch _ _ _ => true

/-- The result of an infinity, or of an overflow that goes to infinity, at SATM = 0 (Table 10-3). -/
def Fmt.infResult (f : Fmt) (s : Bool) : Nat :=
  match f.infEnc, f.nanEnc with
  | some i, _ => f.signed s i
  | none, some q => q
  | none, none => f.signed s f.maxEnc

/-- A number rounded once to a format (R214 to R216): `satm` is the slot's SATM. -/
def Fmt.round (f : Fmt) (mode : RMode) (satm : Bool) (v : Num) : Nat :=
  match v with
  | .nan => f.nanEnc.getD 0
  | .inf s => if satm then f.signed s f.maxEnc else f.infResult s
  | .fin s n d =>
    if n = 0 then f.signed s 0
    else
      let kmin : Int := 1 - (f.bias : Int) - f.mbits
      let k : Int := max (log2Ratio n d - f.mbits) kmin
      let enc := (k - kmin).toNat * 2 ^ f.mbits + roundUnits mode s n d k
      if enc ≤ f.maxEnc then f.signed s enc
      else if satm then f.signed s f.maxEnc
      else if mode.overflows s then f.infResult s
      else f.signed s f.maxEnc

/-- A number rounded and clamped to an n-bit two's-complement integer, as its bits (R208, R214, R216). -/
def roundInt (bits : Nat) (mode : RMode) (v : Num) : Nat :=
  let hi := 2 ^ (bits - 1) - 1
  match v with
  | .nan => 0
  | .inf s => if s then 2 ^ (bits - 1) else hi
  | .fin s n d =>
    let t := roundUnits mode s n d 0
    if s then (2 ^ bits - min t (2 ^ (bits - 1))) % 2 ^ bits else min t hi

/-- FP32 by nearest-even (R217). -/
def rne32 (v : Num) : Nat := fmtF32.round .rn false v

/-! ### Exact operations with the special cases of IEEE 754-2019 (R267) -/

def Num.neg : Num → Num
  | .nan => .nan
  | .inf s => .inf (!s)
  | .fin s n d => .fin (!s) n d

/-- The number under an optional sign flip (`.na`, `.nb`, `.nc`). -/
def Num.negIf (b : Bool) (v : Num) : Num := if b then v.neg else v

def Num.abs : Num → Num
  | .nan => .nan
  | .inf _ => .inf false
  | .fin _ n d => .fin false n d

def Num.isNan : Num → Bool
  | .nan => true
  | _ => false

/-- The sign a sum that is exactly zero takes: the common sign of two zeros, else + or, under `.rd`, -. -/
def zeroSign (rd s1 s2 : Bool) (bothZero : Bool) : Bool :=
  if bothZero && s1 == s2 then s1 else rd

/-- The exact sum; `rd` is whether the rounding mode is toward minus infinity. -/
def Num.add (rd : Bool) : Num → Num → Num
  | .nan, _ => .nan
  | _, .nan => .nan
  | .inf s, .inf t => if s == t then .inf s else .nan
  | .inf s, _ => .inf s
  | _, .inf t => .inf t
  | .fin s1 n1 d1, .fin s2 n2 d2 =>
    let x := n1 * d2
    let y := n2 * d1
    if s1 == s2 then
      (if x + y = 0 then .fin (zeroSign rd s1 s2 true) 0 1 else .fin s1 (x + y) (d1 * d2))
    else if x = y then .fin (zeroSign rd s1 s2 (x == 0)) 0 1
    else if y < x then .fin s1 (x - y) (d1 * d2)
    else .fin s2 (y - x) (d1 * d2)

/-- The exact product. -/
def Num.mul : Num → Num → Num
  | .nan, _ => .nan
  | _, .nan => .nan
  | .inf s, .inf t => .inf (s != t)
  | .inf s, .fin t n _ => if n = 0 then .nan else .inf (s != t)
  | .fin s n _, .inf t => if n = 0 then .nan else .inf (s != t)
  | .fin s n1 d1, .fin t n2 d2 => .fin (s != t) (n1 * n2) (d1 * d2)

/-- The exact quotient (R272). -/
def Num.div : Num → Num → Num
  | .nan, _ => .nan
  | _, .nan => .nan
  | .inf _, .inf _ => .nan
  | .inf s, .fin t _ _ => .inf (s != t)
  | .fin s _ _, .inf t => .fin (s != t) 0 1
  | .fin s n1 d1, .fin t n2 d2 =>
    if n2 = 0 then (if n1 = 0 then .nan else .inf (s != t))
    else .fin (s != t) (n1 * d2) (d1 * n2)

/-- `a * b + c` exactly (R267). -/
def Num.fma (rd : Bool) (a b c : Num) : Num := (a.mul b).add rd c

/-- Signed numerator over a denominator, for comparisons. -/
def signedNum (s : Bool) (n : Nat) : Int := if s then -(n : Int) else n

/-- Order of two numbers that are not NaN: less, equal or greater; zeros are equal. -/
def Num.cmp : Num → Num → Ordering
  | .nan, _ => .eq
  | _, .nan => .eq
  | .inf s, .inf t => if s == t then .eq else if s then .lt else .gt
  | .inf s, .fin _ _ _ => if s then .lt else .gt
  | .fin _ _ _, .inf t => if t then .gt else .lt
  | .fin s1 n1 d1, .fin s2 n2 d2 => compare (signedNum s1 (n1 * d2)) (signedNum s2 (n2 * d1))

/-- The number times 2^k, for any integer k. -/
def Num.scale (k : Int) : Num → Num
  | .nan => .nan
  | .inf s => .inf s
  | .fin s n d => if 0 ≤ k then .fin s (n * 2 ^ k.toNat) d else .fin s n (d * 2 ^ (-k).toNat)

/-- A value under `.sat` (R266): clamped to [+0, 1.0], with NaN and -0 becoming +0. -/
def Fmt.clamp01 (f : Fmt) (x : Nat) : Nat :=
  let one := f.bias * 2 ^ f.mbits
  match f.value x with
  | .nan => 0
  | _ => if x / 2 ^ (f.ebits + f.mbits) % 2 = 1 then 0 else min x one

/-- A result rounded by a mode and clamped where `.sat` says so (R266). -/
def Fmt.result (f : Fmt) (rnd : Round) (sat : Bool) (v : Num) : Nat :=
  let x := f.round (.of rnd) false v
  if sat then f.clamp01 x else x

/-- Whether the mode is toward minus infinity, which gives an exact zero sum its sign. -/
def isDown (r : Round) : Bool := r == .rd

/-- The lesser of two encodings under the rules of R268, in any format with a NaN. -/
def Fmt.minEnc (f : Fmt) (a b : Nat) : Nat :=
  match f.value a, f.value b with
  | .nan, .nan => f.nanEnc.getD 0
  | .nan, _ => b
  | _, .nan => a
  | x, y =>
    match x.cmp y with
    | .lt => a
    | .gt => b
    | .eq => if a / 2 ^ (f.ebits + f.mbits) % 2 = 1 then a else b

/-- The greater of two encodings under the rules of R268. -/
def Fmt.maxOf (f : Fmt) (a b : Nat) : Nat :=
  match f.value a, f.value b with
  | .nan, .nan => f.nanEnc.getD 0
  | .nan, _ => b
  | _, .nan => a
  | x, y =>
    match x.cmp y with
    | .lt => b
    | .gt => a
    | .eq => if a / 2 ^ (f.ebits + f.mbits) % 2 = 1 then b else a

/-- A number rounded to an integral value, with its sign (R271). -/
def Num.integral (mode : RMode) : Num → Num
  | .nan => .nan
  | .inf s => .inf s
  | .fin s n d => .fin s (roundUnits mode s n d 0) 1

/-- The integer square root, by bits from `b` down, above the root `r` found so far. -/
def isqrtFrom (n : Nat) : Nat → Nat → Nat
  | 0, r => r
  | b + 1, r => if (r + 2 ^ b) * (r + 2 ^ b) ≤ n then isqrtFrom n b (r + 2 ^ b) else isqrtFrom n b r

/-- The floor of the square root. -/
def isqrt (n : Nat) : Nat := isqrtFrom n (Nat.log2 n / 2 + 1) 0

/-- The square root of n / 2^e as a number that rounds as the exact root does: `p` extra bits, then a sticky half. -/
def sqrtNum (p : Nat) (n d : Nat) : Num :=
  let x := n * d * 2 ^ (2 * p)
  let r := isqrt x
  if r * r = x then .fin false r (d * 2 ^ p) else .fin false (2 * r + 1) (2 * d * 2 ^ p)

/-- The exact square root to be rounded (R272); the denominators of formats are powers of two. -/
def Num.sqrt : Num → Num
  | .nan => .nan
  | .inf s => if s then .nan else .inf false
  | .fin s n d => if n = 0 then .fin s 0 1 else if s then .nan else sqrtNum 80 n d

end Sys2Proof.Machine
end

