-- ==== Sys2Proof/Machine/FloatFuns.lean ====
section
/-! DEFINITION. The versioned functions (R219, R273 to R279): the algorithms of version 1, and version 2 by
correct rounding of a value computed to 320 binary places, whose error is far below any rounding boundary. -/

namespace Sys2Proof.Machine

/-! ### Fixed point: an integer x stands for x / 2^320 -/

/-- Binary places of the fixed-point values. -/
def fxP : Nat := 320

/-- One in fixed point. -/
def fxOne : Int := 2 ^ fxP

/-- Product in fixed point. -/
def fxMul (x y : Int) : Int := x * y / fxOne

/-- A ratio in fixed point. -/
def fxRatio (n : Int) (d : Nat) : Int := n * fxOne / d

/-- A fixed-point value as an exact number. -/
def fxNum (x : Int) : Num := .fin (x < 0) x.natAbs (2 ^ fxP)

/-- Partial sums of z + z^3/3 + z^5/5 + ..., with the sign alternating when `alt`. -/
def oddSeries (alt : Bool) (z2 : Int) : Nat → Nat → Int → Int → Int
  | 0, _, _, acc => acc
  | fuel + 1, k, pw, acc =>
    let t := pw / (2 * k + 1 : Nat)
    let acc := if alt && k % 2 == 1 then acc - t else acc + t
    oddSeries alt z2 fuel (k + 1) (fxMul pw z2) acc

/-- atanh z for |z| at most 1/3. -/
def fxAtanh (z : Int) : Int := oddSeries false (fxMul z z) 110 0 z 0

/-- atan z for |z| at most 1/5. -/
def fxAtan (z : Int) : Int := oddSeries true (fxMul z z) 80 0 z 0

/-- ln 2 = 2 atanh(1/3). -/
def fxLn2 : Int := 2 * fxAtanh (fxRatio 1 3)

/-- pi = 16 atan(1/5) - 4 atan(1/239). -/
def fxPi : Int := 16 * fxAtan (fxRatio 1 5) - 4 * fxAtan (fxRatio 1 239)

/-- Partial sums of the exponential series. -/
def expSeries (x : Int) : Nat → Nat → Int → Int → Int
  | 0, _, _, acc => acc
  | fuel + 1, k, t, acc => expSeries x fuel (k + 1) (fxMul t x / (k + 1 : Nat)) (acc + t)

/-- e^x for 0 ≤ x < 1. -/
def fxExp (x : Int) : Int := expSeries x 80 0 fxOne 0

/-- Partial sums of the sine and cosine series from the term `t` = x^k/k!, as (cosine, sine). -/
def trigSeries (x : Int) : Nat → Nat → Int → Int × Int → Int × Int
  | 0, _, _, acc => acc
  | fuel + 1, k, t, (c, s) =>
    let acc := match k % 4 with
      | 0 => (c + t, s)
      | 1 => (c, s + t)
      | 2 => (c - t, s)
      | _ => (c, s - t)
    trigSeries x fuel (k + 1) (fxMul t x / (k + 1 : Nat)) acc

/-- Cosine and sine of x, for |x| at most pi. -/
def fxTrig (x : Int) : Int × Int := trigSeries x 130 0 fxOne (0, 0)

/-! ### Real functions of exact numbers, to more places than any rounding here needs -/

/-- A finite number as a signed ratio. -/
def Num.ratio : Num → Int × Nat
  | .fin s n d => (signedNum s n, d)
  | _ => (0, 1)

/-- 2^v, for a finite v. -/
def exp2Num (v : Num) : Num :=
  let (n, d) := v.ratio
  let q := n / d
  let r := n % d
  if r = 0 then Num.scale q (.fin false 1 1)
  else Num.scale q (fxNum (fxExp (fxMul (fxRatio r d) fxLn2)))

/-- A positive number as m * 2^e with 1 ≤ m < 2. -/
def normal2 (n d : Nat) : Nat × Nat × Int :=
  let e := log2Ratio n d
  if 0 ≤ e then (n, d * 2 ^ e.toNat, e) else (n * 2 ^ (-e).toNat, d, e)

/-- ln of a positive ratio between 1/2 and 2. -/
def fxLnNear (n d : Nat) : Int := 2 * fxAtanh (fxRatio ((n : Int) - d) (n + d))

/-- log2 of a finite positive number. -/
def log2Num (v : Num) : Num :=
  match v with
  | .fin _ n d =>
    let (m, k, e) := normal2 n d
    if m = k then .fin (e < 0) e.natAbs 1
    else
      -- m/k in (1, 2); take it into (3/4, 3/2] so that no leading bits cancel
      let (m, k, e) := if 3 * k ≤ 2 * m then (m, 2 * k, e + 1) else (m, k, e)
      fxNum (e * fxOne + fxLnNear m k * fxOne / fxLn2)
  | v => v

/-- ln of a finite positive number. -/
def lnNum (v : Num) : Num :=
  match v with
  | .fin _ n d =>
    let (m, k, e) := normal2 n d
    let (m, k, e) := if 3 * k ≤ 2 * m then (m, 2 * k, e + 1) else (m, k, e)
    fxNum (e * fxLn2 + fxLnNear m k)
  | v => v

/-- cos(2 pi n/d) and sin(2 pi n/d), for |n/d| at most 1/2; exact at the quarter turns. -/
def trigTurns (n : Int) (d : Nat) : Num × Num :=
  if n = 0 then (.fin false 1 1, .fin false 0 1)
  else if 2 * n.natAbs = d then (.fin true 1 1, .fin false 0 1)
  else if 4 * n.natAbs = d then (.fin false 0 1, .fin (n < 0) 1 1)
  else
    let (c, s) := fxTrig (2 * fxPi * n / d)
    (fxNum c, fxNum s)

/-! ### Version 1 -/

/-- A value rounded to FP32, as a number: rne32 of R217. -/
def r32 (v : Num) : Num := fmtF32.value (rne32 v)

/-- rne32(a*b + c), one `FFMA`. -/
def fma32 (a b c : Num) : Num := r32 (Num.fma false a b c)

/-- rne32(a*b). -/
def mul32 (a b : Num) : Num := r32 (a.mul b)

/-- A finite number rounded to the nearest integer, ties to even. -/
def nearestInt (v : Num) : Int :=
  match v with
  | .fin s n d => signedNum s (roundUnits .rn s n d 0)
  | _ => 0

/-- An integer ratio as a number. -/
def ratioNum (n : Int) (d : Nat) : Num := .fin (n < 0) n.natAbs d

def cst (bits : Nat) : Num := fmtF32.value bits
def num1 : Num := .fin false 1 1

/-- `FRCP`, version 1 (R274), of a finite nonzero magnitude n/d of sign s. -/
def frcpV1 (s : Bool) (n d : Nat) : Nat :=
  let (m, k, e) := normal2 n d
  let mv := Num.fin false m k
  let j := (m - k) * 128 / k
  let y0 := r32 (.fin false 256 (256 + 2 * j + 1))
  let e0 := fma32 mv.neg y0 num1
  let t := fma32 e0 e0 e0
  let q := fma32 t e0 e0
  let y := fma32 y0 q y0
  rne32 ((y.scale (-e)).negIf s)

/-- `FRSQ`, version 1 (R275), of a finite positive number. -/
def frsqV1 (n d : Nat) : Nat :=
  let (m, k, e) := normal2 n d
  let (m, e) := if e % 2 = 1 then (2 * m, e - 1) else (m, e)
  let mv := Num.fin false m k
  let j := (m - k) * 256 / k
  let y0 := r32 (sqrtNum 80 (512 * (513 + 2 * j)) ((513 + 2 * j) * (513 + 2 * j)))
  let s := mul32 y0 y0
  let e0 := fma32 mv.neg s num1
  let t := fma32 e0 (cst 0x3EC00000) (cst 0x3F000000)
  let u := mul32 t e0
  let y := fma32 y0 u y0
  rne32 (y.scale (-(e / 2)))

/-- `FEXPF`, version 1 (R276), of a finite nonzero number. -/
def fexpfV1 (v : Num) : Nat :=
  if v.cmp (.fin false 256 1) = .gt then 0x7F800000
  else if v.cmp (.fin true 256 1) = .lt then 0
  else
    let n : Int := if v.abs.cmp num1 = .gt then nearestInt v else 0
    let f := v.add false (ratioNum (-n) 1)
    let i := nearestInt (f.scale 6)
    let r := f.add false (ratioNum (-i) 64)
    let t := r32 (exp2Num (ratioNum i 64))
    let t1 := fma32 r (cst 0x3D635847) (cst 0x3E75FDF0)
    let t2 := fma32 r t1 (cst 0x3F317218)
    let p := fma32 r t2 num1
    let y := mul32 t p
    rne32 (if n = 0 then y else y.scale n)

/-- `FLOGF`, version 1 (R277), of a finite positive number. -/
def flogfV1 (n d : Nat) : Nat :=
  let (m, k, e) := normal2 n d
  let (m, k, e) := if 3 * k ≤ 2 * m then (m, 2 * k, e + 1) else (m, k, e)
  let mv := Num.fin false m k
  let j := nearestInt (((mv.add false (.fin true 3 4))).scale 7)
  let rj := r32 (.fin false 128 (96 + j.toNat))
  let l := r32 ((log2Num rj).neg.add false (.fin false 0 1))
  let x := fma32 mv rj num1.neg
  let p := fma32 x (cst 0xBEB8AA3B) (cst 0x3EF6384F)
  let p := fma32 x p (cst 0xBF38AA3B)
  let p := fma32 x p (cst 0x3FB8AA3B)
  let p := mul32 x p
  rne32 ((r32 ((ratioNum e 1).add false l)).add false p)

/-- The argument of `FSIN` and `FCOS` less its nearest integer, as a signed ratio (R278). -/
def turnFrac (v : Num) : Num := v.add false (ratioNum (-(nearestInt v)) 1)

/-- `FSIN` and `FCOS`, version 1 (R278), of a finite nonzero number. -/
def ftrigV1 (cosine : Bool) (v : Num) : Nat :=
  let f := turnFrac v
  let i := nearestInt (f.scale 8)
  let h := f.add false (ratioNum (-i) 256)
  let (c, s) := trigTurns i 256
  let co := r32 c
  let sv := r32 s
  let th := mul32 h (cst 0x40C90FDB)
  let t := mul32 th th
  let u := fma32 t (cst 0x3D2AAAAB) (cst 0x3F000000).neg
  let cm := mul32 t u
  let w := mul32 th t
  let sn := fma32 w (cst 0xBE2AAAAB) th
  if cosine then rne32 (Num.fma false co cm (fma32 sv.neg sn co))
  else rne32 (Num.fma false sv cm (fma32 co sn sv))

/-! ### The functions, by version -/

/-- The six functions of Table 13-3. -/
inductive FloatFn where
  | rcp | rsq | exp2 | log2 | sin | cos
  deriving DecidableEq, Repr

/-- A versioned function of an FP32 word (R273): special values first, then the algorithm of `ftv`. -/
def floatFn (fn : FloatFn) (ftv : Nat) (x : Nat) : Nat :=
  let v := fmtF32.value x
  match fn, v with
  | _, .nan => 0x7FC00000
  | .rcp, .inf s => if s then 0x80000000 else 0
  | .rcp, .fin s n d =>
    if n = 0 then (if s then 0xFF800000 else 0x7F800000)
    else if ftv = 1 then frcpV1 s n d else rne32 (.fin s d n)
  | .rsq, .inf s => if s then 0x7FC00000 else 0
  | .rsq, .fin s n d =>
    if n = 0 then (if s then 0xFF800000 else 0x7F800000)
    else if s then 0x7FC00000
    else if ftv = 1 then frsqV1 n d
    else
      -- 1/sqrt(n/d) = sqrt(n*d)/n; with n = m*2^e the root is taken of a dyadic number
      let (m, k, e) := normal2 n d
      let (m, e) := if e % 2 = 1 then (2 * m, e - 1) else (m, e)
      let r := isqrt (k * 2 ^ 400 / m)
      let y := if r * r * m = k * 2 ^ 400 then Num.fin false r (2 ^ 200) else .fin false (2 * r + 1) (2 ^ 201)
      rne32 (y.scale (-(e / 2)))
  | .exp2, .inf s => if s then 0 else 0x7F800000
  | .exp2, .fin _ n _ =>
    if n = 0 then 0x3F800000
    else if ftv = 1 then fexpfV1 v
    else if v.cmp (.fin false 256 1) = .gt then 0x7F800000
    else if v.cmp (.fin true 256 1) = .lt then 0
    else rne32 (exp2Num v)
  | .log2, .inf s => if s then 0x7FC00000 else 0x7F800000
  | .log2, .fin s n d =>
    if n = 0 then 0xFF800000
    else if s then 0x7FC00000
    else if ftv = 1 then flogfV1 n d else rne32 (log2Num v)
  | .sin, .inf _ => 0x7FC00000
  | .sin, .fin s n _ =>
    if n = 0 then (if s then 0x80000000 else 0)
    else if ftv = 1 then ftrigV1 false v
    else
      let (k, d) := (turnFrac v).ratio
      rne32 (trigTurns k d).2
  | .cos, .inf _ => 0x7FC00000
  | .cos, .fin _ n _ =>
    if n = 0 then 0x3F800000
    else if ftv = 1 then ftrigV1 true v
    else
      let (k, d) := (turnFrac v).ratio
      rne32 (trigTurns k d).1

end Sys2Proof.Machine
end

