-- ==== Sys2Proof/Machine/FloatOps.lean ====
section
/-! DEFINITION. Lane results of the floating-point and conversion instructions (R266 to R291), format slots
(R213, R392), the LQ2 codebook (R212), and the cross-lane tree (R218). -/

namespace Sys2Proof.Machine

/-- A word read as FP32. -/
def f32 (x : Word) : Num := fmtF32.value x.toNat

/-- A 64-bit value read as FP64. -/
def f64 (x : DWord) : Num := fmtF64.value x.toNat

/-- An FP32 encoding as a word. -/
def w32 (x : Nat) : Word := BitVec.ofNat 32 x

/-- An FP32 result under rounding and `.sat` (R266). -/
def res32 (m : FMod) (v : Num) : Word := w32 (fmtF32.result m.rnd m.sat v)

/-- An FP64 result under rounding and `.sat` (R283). -/
def res64 (m : FMod) (v : Num) : DWord := BitVec.ofNat 64 (fmtF64.result m.rnd m.sat v)

/-- `FADD` (R267). -/
def laneFadd (m : FMod) (a b : Word) : Word :=
  res32 m (((f32 a).negIf m.na).add (isDown m.rnd) ((f32 b).negIf m.nb))

/-- `FSUB` (R267). -/
def laneFsub (m : FMod) (a b : Word) : Word :=
  res32 m (((f32 a).negIf m.na).add (isDown m.rnd) ((f32 b).negIf (!m.nb)))

/-- `FMUL` (R267). -/
def laneFmul (m : FMod) (a b : Word) : Word := res32 m (((f32 a).negIf m.na).mul ((f32 b).negIf m.nb))

/-- `FFMA` (R267). -/
def laneFfma (m : FMod) (a b c : Word) : Word :=
  res32 m (Num.fma (isDown m.rnd) ((f32 a).negIf m.na) ((f32 b).negIf m.nb) ((f32 c).negIf m.nc))

def laneFmin (a b : Word) : Word := w32 (fmtF32.minEnc a.toNat b.toNat)
def laneFmax (a b : Word) : Word := w32 (fmtF32.maxOf a.toNat b.toNat)

/-- Floating-point comparison (R269). -/
def fltCmp (cc : FltCmp) (a b : Num) : Bool :=
  let un := a.isNan || b.isNan
  let o := a.cmp b
  match cc with
  | .eq => !un && o == .eq
  | .ne => un || o != .eq
  | .lt => !un && o == .lt
  | .le => !un && o != .gt
  | .gt => !un && o == .gt
  | .ge => !un && o != .lt
  | .num => !un
  | .nan => un

/-- `FCLASS` (R270). -/
def laneFclass (a : Word) : Word :=
  let s := a.getLsbD 31
  let e := field a.toNat 23 8
  let m := field a.toNat 0 23
  let k :=
    if e = 255 then (if m = 0 then (if s then 0 else 7) else if m < 2 ^ 22 then 8 else 9)
    else if e = 0 then (if m = 0 then (if s then 3 else 4) else (if s then 2 else 5))
    else (if s then 1 else 6)
  w32 (2 ^ k)

/-- `FRND` (R271). -/
def laneFrnd (r : Round) (a : Word) : Word := w32 (fmtF32.round .rn false ((f32 a).integral (.of r)))

/-- `FDIV` (R272). -/
def laneFdiv (r : Round) (a b : Word) : Word := w32 (fmtF32.round (.of r) false ((f32 a).div (f32 b)))

/-- `FSQRT` (R272). -/
def laneFsqrt (r : Round) (a : Word) : Word := w32 (fmtF32.round (.of r) false (f32 a).sqrt)

/-- `FSCALE` (R280): beyond 2^1000 either way the rounded product no longer changes. -/
def laneFscale (r : Round) (a b : Word) : Word :=
  w32 (fmtF32.round (.of r) false ((f32 a).scale (clampInt (-1000) 1000 b.toInt)))

/-- `FEXPO` (R280). -/
def laneFexpo (a : Word) : Word :=
  match f32 a with
  | .fin _ n d => if n = 0 then 0x80000000#32 else wordOf (log2Ratio n d)
  | _ => 0x7FFFFFFF#32

/-- `FMANT` (R280). -/
def laneFmant (a : Word) : Word :=
  match f32 a with
  | .fin s n d => if n = 0 then a else w32 (rne32 ((Num.fin s n d).scale (-(log2Ratio n d))))
  | .inf _ => a
  | .nan => 0x7FC00000#32

/-- The format of a half-width element: BF16 under `.bf` (R281). -/
def halfFmt (bf : Bool) : Fmt := if bf then fmtBF16 else fmtF16

/-- Element k of a packed half-width word. -/
def halfAt (x : Word) (k : Nat) : Nat := field x.toNat (16 * k) 16

/-- A word of two half-width elements. -/
def packHalf (e0 e1 : Nat) : Word := w32 (e0 + e1 * 2 ^ 16)

/-- `HADD2`, `HMUL2` and `HFMA2` (R281): an exact function of the two or three elements, rounded once. -/
def laneHalf (m : HMod) (f : Num → Num → Num → Num) (a b c : Word) : Word :=
  let q := halfFmt m.bf
  let e k := q.result m.rnd m.sat (f (q.value (halfAt a k)) (q.value (halfAt b k)) (q.value (halfAt c k)))
  packHalf (e 0) (e 1)

def laneHadd2 (m : HMod) (a b : Word) : Word := laneHalf m (fun x y _ => x.add (isDown m.rnd) y) a b 0
def laneHmul2 (m : HMod) (a b : Word) : Word := laneHalf m (fun x y _ => x.mul y) a b 0
def laneHfma2 (m : HMod) (a b c : Word) : Word := laneHalf m (fun x y z => Num.fma (isDown m.rnd) x y z) a b c

/-- `HMNMX2` (R281). -/
def laneHmnmx2 (mx bf : Bool) (a b : Word) : Word :=
  let q := halfFmt bf
  let e k := if mx then q.maxOf (halfAt a k) (halfAt b k) else q.minEnc (halfAt a k) (halfAt b k)
  packHalf (e 0) (e 1)

/-- The exact sum of two finite signed ratios over a common denominator. -/
def ratioAdd (a b : Int × Nat) : Int × Nat :=
  if b.2 % a.2 = 0 then (a.1 * (b.2 / a.2 : Nat) + b.1, b.2)
  else if a.2 % b.2 = 0 then (a.1 + b.1 * (a.2 / b.2 : Nat), a.2)
  else (a.1 * b.2 + b.1 * a.2, a.2 * b.2)

/-- Whether a number is a zero of sign `s`. -/
def Num.isZero (s : Bool) : Num → Bool
  | .fin t n _ => n == 0 && t == s
  | _ => false

/-- The exact sum of several terms (R217, R282): NaN and infinities first; an exact zero is the common zero of
all terms, else + or, under `.rd`, -. -/
def exactSum (rd : Bool) (l : List Num) : Num :=
  if l.any Num.isNan then .nan
  else
    let pos := l.any fun v => v == .inf false
    let ng := l.any fun v => v == .inf true
    if pos && ng then .nan
    else if pos then .inf false
    else if ng then .inf true
    else
      let (n, d) := (l.map Num.ratio).foldl ratioAdd (0, 1)
      if n = 0 then
        (if l.all (Num.isZero true) then .fin true 0 1
         else if l.all (Num.isZero false) then .fin false 0 1 else .fin rd 0 1)
      else .fin (n < 0) n.natAbs d

/-- `FDOT2` (R282). -/
def laneFdot2 (m : HMod) (a b c : Word) : Word :=
  let q := halfFmt m.bf
  let p k := (q.value (halfAt a k)).mul (q.value (halfAt b k))
  w32 (fmtF32.result m.rnd m.sat (exactSum (isDown m.rnd) [f32 c, p 0, p 1]))

/-- `DADD`, `DMUL` and `DFMA` (R283). -/
def laneDadd (m : FMod) (a b : DWord) : DWord :=
  res64 m (((f64 a).negIf m.na).add (isDown m.rnd) ((f64 b).negIf m.nb))
def laneDmul (m : FMod) (a b : DWord) : DWord := res64 m (((f64 a).negIf m.na).mul ((f64 b).negIf m.nb))
def laneDfma (m : FMod) (a b c : DWord) : DWord :=
  res64 m (Num.fma (isDown m.rnd) ((f64 a).negIf m.na) ((f64 b).negIf m.nb) ((f64 c).negIf m.nc))

/-! ### Conversions (R284 to R286) -/

/-- The format of a two-bit conversion code. -/
def cvtFmt : CvtFmt → Fmt
  | .f32 => fmtF32 | .f16 => fmtF16 | .bf16 => fmtBF16 | .f64 => fmtF64

/-- `CVTIF` (R284): an integer of the source, 64 bits read, rounded to the destination. -/
def laneCvtif (r : Round) (u : Bool) (q : CvtFmt) (s64 : Bool) (x : DWord) : DWord :=
  let n : Int :=
    if s64 then (if u then (x.toNat : Int) else x.toInt)
    else (if u then ((loWord x).toNat : Int) else (loWord x).toInt)
  BitVec.ofNat 64 ((cvtFmt q).round (.of r) false (.fin (n < 0) n.natAbs 1))

/-- `CVTFI` (R285): rounded, then clamped to the destination range. -/
def laneCvtfi (r : Round) (u : Bool) (q : CvtFmt) (d64 : Bool) (x : DWord) : DWord :=
  let bits := if d64 then 64 else 32
  let lo : Int := if u then 0 else -2 ^ (bits - 1)
  let hi : Int := if u then 2 ^ bits - 1 else 2 ^ (bits - 1) - 1
  let v := (cvtFmt q).value (x.toNat % 2 ^ (cvtFmt q).width)
  let n : Int := match v with
    | .nan => 0
    | .inf s => if s then lo else hi
    | .fin s n d => clampInt lo hi (signedNum s (roundUnits (.of r) s n d 0))
  BitVec.ofNat 64 (wrapN bits n)

/-- `CVTFF` (R286): equal codes change only a NaN. -/
def laneCvtff (r : Round) (q p : CvtFmt) (x : DWord) : DWord :=
  let src := x.toNat % 2 ^ (cvtFmt p).width
  let v := (cvtFmt p).value src
  BitVec.ofNat 64 (if q == p && !v.isNan then src else (cvtFmt q).round (.of r) false v)

/-! ### Format slots and narrow elements -/

/-- A format slot (Table 10-2). -/
structure Slot where
  efmt : Nat
  sfmt : Nat
  log2blk : Nat
  rnd : Nat
  satm : Nat
  salt : Nat
  rsv : Nat
  seed : Nat
  deriving DecidableEq, Repr

/-- A slot of its 16 bytes (Table 10-2). -/
def Slot.ofBytes (l : List Byte) : Slot :=
  let n := leNat l
  { efmt := field n 0 8, sfmt := field n 8 8, log2blk := field n 16 8, rnd := field n 24 8, satm := field n 32 8,
    salt := field n 40 8, rsv := field n 48 16, seed := field n 64 64 }

/-- How an element format holds a number. -/
inductive Elem where
  | flt (f : Fmt)
  | int (bits : Nat)
  | lq2
  deriving DecidableEq, Repr

/-- The element format of a code (Table 10-1, R208, R212). -/
def elemOf : Nat → Option Elem
  | 0x00 => some (.flt fmtF32)
  | 0x01 => some (.flt fmtF16)
  | 0x02 => some (.flt fmtBF16)
  | 0x10 => some (.flt fmtE4M3)
  | 0x11 => some (.flt fmtE5M2)
  | 0x12 => some (.flt fmtE3M2)
  | 0x13 => some (.flt fmtE2M3)
  | 0x14 => some (.flt fmtE2M1)
  | 0x20 => some (.int 8)
  | 0x21 => some (.int 4)
  | 0x30 => some .lq2
  | _ => none

/-- Whether a slot's fields are within their limits; SALT is ignored unless RND is 4 (R392). -/
def Slot.ok (s : Slot) : Bool :=
  (elemOf s.efmt).isSome && s.sfmt ≤ 3 && s.log2blk ≤ 10 && (s.efmt != 0x30 || 3 ≤ s.log2blk) &&
    s.rnd ≤ 4 && s.satm ≤ 1 && (s.rnd != 4 || s.salt ≤ 1) && s.rsv == 0

/-- Bits of one element; LQ2 has sixteen for eight. -/
def Elem.bits : Elem → Nat
  | .flt f => f.width
  | .int b => b
  | .lq2 => 16

/-- Elements of one register word (R287). -/
def Elem.perWord : Elem → Nat
  | .flt f => if f.width = 6 then 4 else 32 / f.width
  | .int b => 32 / b
  | .lq2 => 8

/-- The value of an element's bits. -/
def Elem.value : Elem → Nat → Num
  | .flt f, x => f.value (x % 2 ^ f.width)
  | .int b, x => let n := sextN x b; .fin (n < 0) n.natAbs 1
  | .lq2, _ => .nan

/-- The eight values of an LQ2 index, each in quarters (R212). -/
def lq2Quarters (ix : Nat) : List Int :=
  let mag e : Int := if field ix (8 + e) 1 = 1 then 6 else 2
  let sgn e := field ix (1 + e) 1
  let ng := (List.range 7).foldl (fun acc e => acc + sgn e) 0
  (List.range 8).map fun e =>
    let s := if e < 7 then sgn e else ng % 2
    (if s = 1 then -(mag e) else mag e) + (if field ix 0 1 = 1 then 1 else 0)

/-- lq2_decode (R212). -/
def lq2Decode (ix : Nat) : List Num := (lq2Quarters ix).map fun q => ratioNum q 4

/-- The rounding mode of a slot for the element of an index (R215). -/
def Slot.mode (s : Slot) (index : Nat) : RMode :=
  match s.rnd with
  | 0 => .rn
  | 1 => .rz
  | 2 => .ru
  | 3 => .rd
  | _ => .stoch s.seed (s.salt == 1) index

/-- round_fmt (R236): a value rounded to the slot's element format. -/
def roundFmt (v : Num) (s : Slot) (index : Nat) : Nat :=
  match elemOf s.efmt with
  | some (.flt f) => f.round (s.mode index) (s.satm == 1) v
  | some (.int b) => roundInt b (s.mode index) v
  | _ => 0

/-- A block scale of its raw bits (R210). -/
def scaleValue (sfmt raw : Nat) : Num :=
  match sfmt with
  | 1 => let v := raw % 256; if v = 255 then .nan else Num.dyadic false 1 ((v : Int) - 127)
  | 2 => let v := raw % 256; if v ≥ 127 then .nan else fmtE4M3.value v
  | 3 => fmtF32.value (raw % 2 ^ 32)
  | _ => .fin false 1 1

/-- Bytes of one scale (R319). -/
def scaleBytes (sfmt : Nat) : Nat := if sfmt = 3 then 4 else 1

/-- The elements of one word or index, decoded (R287, R288). -/
def wordElems (s : Slot) (x : Nat) : List Num :=
  match elemOf s.efmt with
  | some .lq2 => lq2Decode (x % 2 ^ 16)
  | some e => (List.range e.perWord).map fun j => e.value (field x (e.bits * j) e.bits)
  | none => []

/-- Elements packed from bit 0, each `w` bits (R209). -/
def packElems (w : Nat) : List Nat → Nat
  | [] => 0
  | e :: es => e % 2 ^ w + 2 ^ w * packElems w es

/-- `CVTN` for one lane (R287): the sources divided by the scale, rounded, packed. -/
def laneCvtn (s : Slot) (lane : Nat) (raw : Word) (srcs : List Word) : Word :=
  let sc := scaleValue s.sfmt raw.toNat
  let p := srcs.length
  let w := ((elemOf s.efmt).map Elem.bits).getD 32
  let es := srcs.zipIdx.map fun (x, j) => roundFmt ((f32 x).div sc) s (lane * p + j)
  w32 (packElems w es)

/-- `CVTW` for one lane (R288). -/
def laneCvtw (s : Slot) (raw x : Word) : List Word :=
  let sc := scaleValue s.sfmt raw.toNat
  (wordElems s x.toNat).map fun v => w32 (rne32 (sc.mul v))

/-- `CBDEC` for one lane (R289). -/
def laneCbdec (q : CbFmt) (hi : Bool) (x : Word) : List Word :=
  let vs := lq2Decode (if hi then x.toNat / 2 ^ 16 else x.toNat % 2 ^ 16)
  match q with
  | .f32 => vs.map fun v => w32 (rne32 v)
  | .f16 =>
    let es := vs.map (fmtF16.round .rn false)
    (List.range 4).map fun k => w32 (packElems 16 ((es.drop (2 * k)).take 2))
  | .e4m3 =>
    let es := vs.map (fmtE4M3.round .rn false)
    (List.range 2).map fun k => w32 (packElems 8 ((es.drop (4 * k)).take 4))

/-- Registers `CBDEC` writes (R289). -/
def cbRegs : CbFmt → Nat
  | .e4m3 => 2
  | .f16 => 4
  | .f32 => 8

/-- emax, the largest finite value of an element format (R290). -/
def Elem.emax : Elem → Num
  | .flt f => f.value f.maxEnc
  | .int b => .fin false (2 ^ (b - 1) - 1) 1
  | .lq2 => .fin false 7 4

/-- Whether a magnitude fits under emax times a scale (R290). -/
def fitsScale (g emax s : Num) : Bool := g.cmp (emax.mul s) != .gt

/-- `SCALQ` for one lane (Table 13-6). -/
def laneScalq (s : Slot) (a : Word) : Word :=
  let g := (f32 a).abs
  let emax := ((elemOf s.efmt).map Elem.emax).getD (.fin false 1 1)
  match s.sfmt, g with
  | 0, _ => 0x3F800000#32
  | 1, .nan => 0xFF#32
  | 1, .inf _ => 254#32
  | 1, g => w32 (((List.range 255).find? fun v => fitsScale g emax (scaleValue 1 v)).getD 254)
  | 2, .nan => 0x7F#32
  | 2, .inf _ => 0x7E#32
  | 2, g => w32 ((((List.range 126).map (· + 1)).find? fun v => fitsScale g emax (scaleValue 2 v)).getD 0x7E)
  | _, .nan => 0x7FC00000#32
  | _, .inf _ => 0x7F7FFFFF#32
  | _, g => w32 (min (max (fmtF32.round .ru false (g.div emax)) 1) 0x7F7FFFFF)

/-- The magnitudes `AMAX` takes from one source word, as FP32 encodings (R291). -/
def amaxElems (q : AmaxFmt) (x : Word) : List Nat :=
  match q with
  | .f32 => [x.toNat % 2 ^ 31]
  | .f16x2 => [0, 1].map fun k => rne32 (fmtF16.value (halfAt x k % 2 ^ 15))
  | .bf16x2 => [0, 1].map fun k => rne32 (fmtBF16.value (halfAt x k % 2 ^ 15))

/-- `AMAX` for one lane (R291). -/
def laneAmax (q : AmaxFmt) (a b : Word) : Word :=
  match amaxElems q a ++ amaxElems q b with
  | [] => 0
  | e :: es => w32 (es.foldl fmtF32.maxOf e)

/-! ### The cross-lane tree (R218) and its operations (Table 12-8) -/

/-- xl_node: `k` levels over lanes lo to lo + 2^k - 1; none where no lane is active. -/
def xlNode (op : Word → Word → Word) (x : Nat → Option Word) : Nat → Nat → Option Word
  | 0, lo => x lo
  | k + 1, lo =>
    match xlNode op x k lo, xlNode op x k (lo + 2 ^ k) with
    | none, b => b
    | a, none => a
    | some a, some b => some (op a b)

/-- xl_prefix over the `n` lanes from 0, by the sizes 2^5 down to 2^0. -/
def xlPrefixFrom (op : Word → Word → Word) (x : Nat → Option Word) (n : Nat) : Nat → Option Word → Nat → Option Word
  | 0, acc, _ => acc
  | k + 1, acc, lo =>
    if n / 2 ^ k % 2 = 1 then
      let b := xlNode op x k lo
      let acc := match acc, b with
        | none, b => b
        | a, none => a
        | some a, some b => some (op a b)
      xlPrefixFrom op x n k acc (lo + 2 ^ k)
    else xlPrefixFrom op x n k acc lo

/-- The combination of the active lanes below lane `n`; xl_prefix(i) is this at n = i + 1. -/
def xlBelow (op : Word → Word → Word) (x : Nat → Option Word) (n : Nat) : Option Word :=
  xlPrefixFrom op x n 6 none 0

/-- A reduction operation (Table 12-8). -/
def redOp (op : RedOp) (x y : Word) : Word :=
  match op with
  | .add => x + y
  | .smin => laneImin false x y
  | .smax => laneImax false x y
  | .umin => laneImin true x y
  | .umax => laneImax true x y
  | .and => x &&& y
  | .or => x ||| y
  | .xor => x ^^^ y
  | .fadd => w32 (rne32 ((f32 x).add false (f32 y)))
  | .fmin => laneFmin x y
  | .fmax => laneFmax x y

/-- Its identity for `.excl` (Table 12-8). -/
def redIdentity : RedOp → Word
  | .add => 0
  | .smin => 0x7FFFFFFF#32
  | .smax => 0x80000000#32
  | .umin => 0xFFFFFFFF#32
  | .umax => 0
  | .and => 0xFFFFFFFF#32
  | .or => 0
  | .xor => 0
  | .fadd => 0x80000000#32
  | .fmin => 0x7F800000#32
  | .fmax => 0xFF800000#32

end Sys2Proof.Machine
end

