-- ==== Sys2Proof/Machine/Parts.lean ====
section
/-! DEFINITION. The parts of the state: plain data for registers, warps, teams, grids, cores, memory, queues,
fabric and services. Each field cites the rule of spec/ that gives it. -/

namespace Sys2Proof.Machine

/-- A finite map: keys strictly rising; what an unlisted key holds is said where the map is read. -/
abbrev AMap (α : Type) := List (Nat × α)

/-- Memory: bytes at addresses, strictly rising, no byte equal to what an unlisted address reads as (0). -/
abbrev Memory := List Host.Cell

/-- A signature of the lines written (R166). -/
abbrev Sig := BitVec 1024

/-! ### Registers -/

/-- A shape tag (R76). -/
inductive Tag where
  | uniform | affine | general
  deriving DecidableEq, Repr

/-- A vector register: its tag and its 32 lane words (R24, R76). -/
structure VReg where
  tag : Tag
  words : List Word
  deriving DecidableEq, Repr

/-! ### Warps -/

/-- States of a warp (Table 5-4). -/
inductive WStatus where
  | running | parked | handler | yielded | saved | exited
  deriving DecidableEq, Repr

/-- A frontier entry (R53, R54), with the REJOIN bit of its header; `known` says whether the header has been read yet,
so that PRIO and REJOIN are its own. -/
structure FEntry where
  addr : Nat
  mask : Mask
  prio : Nat
  passes : Nat
  rejoin : Bool
  known : Bool := true
  deriving DecidableEq, Repr

/-- Where a warp stands inside a clause: the header, the next instruction, the address after the clause, the
lanes that continue it, the lanes that execute the instruction at `pc` (R63, R99), the engine class, and the words
of the clause still to dispatch, which the core fetched whole (R223); none for a position that a resumed warp has yet
to fetch (R101). -/
structure Cursor where
  hdr : Nat
  pc : Nat
  last : Nat
  live : Mask
  rmask : Mask
  eng : Nat
  words : List DWord
  deriving DecidableEq, Repr

/-- What a window entry has computed before it retires (R69 to R71): nothing yet, the new contents of the
registers and predicates it writes, or a load in flight. -/
inductive WResult where
  | none
  | alu (regs : List (Nat × VReg)) (preds : List (Nat × Mask))
  | load
  deriving DecidableEq, Repr

/-- One entry of the in-flight window (R67, R70), with the frontier and position as they stood at dispatch. `left` holds the
active lanes that have yet to complete once the result of the others is final (R70): none for an entry that has
completed. -/
structure WEntry where
  seq : Nat
  instr : Instr
  pc : Nat
  word : DWord
  mask : Mask
  frontier : List FEntry
  cursor : Cursor
  result : WResult
  left : Mask := 0
  deriving DecidableEq, Repr

/-- Where an access lies after translation (R115, R116). -/
inductive Loc where
  /-- a local physical byte, its key index and replacement class -/
  | mem (pa key cls : Nat)
  /-- a byte of another package -/
  | remote (fid addr key : Nat)
  /-- a byte of the team's core scratch -/
  | sc (a : Nat)
  /-- a byte of the team's cluster memory -/
  | cl (a : Nat)
  /-- a byte of the grid's chip scratchpad -/
  | ch (a : Nat)
  /-- a byte of a sketch window: descriptor physical address, its key, byte offset in the page -/
  | win (desc key off : Nat)
  deriving DecidableEq, Repr

/-- One lane's access: lane, effective address, place, length in bytes. -/
structure Acc where
  lane : Nat
  ea : Nat
  loc : Loc
  len : Nat
  deriving DecidableEq, Repr

/-- A load whose data has not bound in every lane (R73): its destinations with the lanes bound so far. `fallen` says that
`ld` has fallen for it before it retired. -/
structure LoadOp where
  id : Nat
  dsts : List Nat
  vals : List VReg
  accs : List Acc
  need : Mask
  bound : Mask
  retired : Bool
  acq : Option Scope
  sig : Sig
  fallen : Bool := false
  deriving DecidableEq, Repr

/-- The kinds of writing operations that perform after retirement (R75). -/
inductive StKind where
  | plain
  | ordered
  | release
  | red (op : AtomOp)
  | atom (op : AtomOp)
  | atomc
  deriving DecidableEq, Repr

/-- One lane's part of a store: its access, the bytes it writes (already merged, R294), and the operands of an
atomic. -/
structure StAcc where
  acc : Acc
  bytes : List (Nat × Byte)
  opnd : Nat
  cmp : Nat
  deriving DecidableEq, Repr

/-- A store, `RED` or atomic not yet performed in every lane, or not yet acknowledged (R75, R232). -/
structure StoreOp where
  id : Nat
  kind : StKind
  rel : Option Scope
  acq : Option Scope
  accs : List StAcc
  todo : Mask
  acks : Nat
  released : Bool
  sig : Sig
  /-- packages to which some packet of it timed out (R417) -/
  lost : List Nat
  deriving DecidableEq, Repr

/-- A retired tile operation (R326): what it does, the registers it has read, and its address. -/
structure TileOp where
  id : Nat
  instr : Instr
  mask : Mask
  tile : Nat
  aRegs : List (List Word)
  cRegs : List (List Word)
  /-- where it reads or writes memory: its first byte and its hull, and the places of a write to `.gl` -/
  addr : Nat
  len : Nat
  places : List (Loc × Nat)
  deriving DecidableEq, Repr

/-- What a copy moves (Table 14-5). -/
inductive CopyKind where
  | copy | put | get
  | mcast (tree ident off : Nat)
  | coll (chunk : Nat)
  /-- a message (R188), which joins no batch -/
  | send (fid ctx tag : Nat)
  deriving DecidableEq, Repr

/-- One row of a copy: source address, destination address, bytes. -/
structure CopyRow where
  src : Nat
  dst : Nat
  len : Nat
  deriving DecidableEq, Repr

/-- How far an engine operation has come (R303). -/
inductive CopyStage where
  /-- waits to be transferred -/
  | issued
  /-- every destination byte is on its way or written; for a remote side, acknowledgements outstanding -/
  | moved
  /-- landed -/
  | landed
  deriving DecidableEq, Repr

/-- A copy-class operation, `MCAST` or `COLL` of a batch (R303 to R305). -/
structure CopyOp where
  id : Nat
  /-- where its instruction stands, which the records of R406 and R417 name -/
  pc : Nat
  word : DWord
  mask : Mask
  kind : CopyKind
  ds : Space
  ss : Space
  rows : List CopyRow
  ntf : Option Nat
  /-- the package that the remote side of a `PUT` or `GET` names -/
  fid : Nat
  stage : CopyStage
  acks : Nat
  /-- pages that paused it (R406) -/
  paused : List Nat
  /-- packages to which some packet of it timed out (R416, R417) -/
  lost : List Nat
  /-- the address in each page that paused it -/
  pausedAt : AMap Nat := []
  /-- the source bytes read so far, and how many bytes have been written -/
  got : List Byte := []
  put : Nat := 0
  deriving DecidableEq, Repr

/-- A batch of the streamer (R305). -/
structure Batch where
  serial : Nat
  ops : List Nat
  deriving DecidableEq, Repr

/-- What a sketch operation does in a lane (R334, R336, R339). -/
inductive SkDo where
  | ins | del | qry | card | rank | qtl
  | stat (j : Nat)
  deriving DecidableEq, Repr

/-- A sketch operation issued and not yet performed (R332 to R336): the lanes still to perform, each with its
snapshot of the descriptor, key and weight, and what has been read or written so far. -/
structure SkLane where
  lane : Nat
  /-- descriptor: virtual address, physical place, key, class -/
  desc : Nat
  dloc : Loc
  dcls : Nat
  /-- snapshot of the descriptor's 64 bytes -/
  snap : List Byte
  key : Nat
  wt : Nat
  /-- what the operation does, the steps it takes, and the steps performed -/
  act : SkDo
  steps : Nat
  done : Nat
  /-- counter values read, in the order of the operation's columns -/
  reads : List Nat
  sat : Bool
  und : Bool
  /-- the counters that the step last taken found underflowing, as virtual addresses (R414) -/
  low : List Nat := []
  /-- the counters it touches, as their places -/
  cols : List Loc
  deriving DecidableEq, Repr

/-- A sketch operation of a warp. -/
structure SkOp where
  id : Nat
  pc : Nat
  word : DWord
  mask : Mask
  instr : Instr
  lanes : List SkLane
  dsts : List Nat
  vals : List VReg
  stDst : List Nat
  stVal : List VReg
  retired : Bool
  /-- units merged or built so far (`SKMRG`, `SKFOLD`, `SKCLR`) -/
  units : Nat
  total : Nat
  busy : Bool
  paused : List Nat
  /-- the address in each page that paused it (R406) -/
  pausedAt : AMap Nat := []
  /-- LAWF of its context as it issued (R356) -/
  lawf : Bool := false
  deriving DecidableEq, Repr

/-- The five counters (Table 11-8). -/
structure Counters where
  ld : Nat
  st : Nat
  cb : Nat
  tl : Nat
  sk : Nat
  deriving DecidableEq, Repr

/-- The four accumulated signatures of a warp (R166). -/
structure Sigs where
  t : Sig
  c : Sig
  p : Sig
  s : Sig
  deriving DecidableEq, Repr

/-- The trap record (Table 23-3), with the warp that stays stopped until the event ring has taken it (R369). -/
structure TrapRec where
  code : Nat
  arg : Nat
  sub : Nat
  skid : Nat
  halt : Bool
  addrv : Bool
  savef : Bool
  nest : Bool
  hdr : Bool
  lane : Nat
  widx : Nat
  pcore : Nat
  pc : Nat
  insn : DWord
  mask : Mask
  resume : Mask
  addr : Nat
  clk : Nat
  aux : Nat
  live : Mask
  owner : Option WarpId
  deriving DecidableEq, Repr

/-- Handler state (R82, R371): the bank held, when the warp began to wait for one, whether the handler had begun before
a save (R100), the record, and the frozen frontier with the interrupted position. -/
structure Handler where
  bank : Option Nat
  since : Nat
  started : Bool
  trec : TrapRec
  frozen : List FEntry
  fcur : Option Cursor
  deriving DecidableEq, Repr

/-- What a parked warp waits for (R404): the pages of its failing lanes, the lanes it replays, and whether a clause
fetch parked. -/
structure Park where
  pages : List Nat
  resume : Mask
  fetch : Bool
  deriving DecidableEq, Repr

/-- An ordered stream of a warp to one package (R185). -/
structure Stream where
  fid : Nat
  serial : Nat
  count : Nat
  deriving DecidableEq, Repr

/-- A warp (chapters 03, 04, 05, 08, 09, 11, 23). -/
structure Warp where
  role : Nat
  core : Nat
  slot : Nat
  status : WStatus
  g : Nat
  atl : Nat
  fr : List FEntry
  cursor : Option Cursor
  port : Option Nat
  fair : Nat
  /-- the cycle in which the fairness counter last rose, and the cycle since which the warp is ready (R65) -/
  fairAt : Option Nat
  readySince : Option Nat
  regs : AMap VReg
  preds : AMap Mask
  hregs : AMap VReg
  pend : AMap Nat
  window : List WEntry
  seq : Nat
  stage : List Nat
  loads : List LoadOp
  stores : List StoreOp
  tileOps : List TileOp
  skOps : List SkOp
  copies : List CopyOp
  openBatch : List Nat
  batches : List Batch
  serial : Nat
  ctr : Counters
  sigs : Sigs
  fpend : List Nat
  streams : List Stream
  msgCounts : AMap Nat
  /-- the operand latch (R323), which this model never fills: keeping a fragment is optional and changes no result -/
  latch : Option (Nat × Nat)
  handler : Option Handler
  /-- banks given back at `TRET` that still count as in use, each with the loads that must bind first (R81, R373) -/
  drains : List (Nat × List Nat) := []
  park : Option Park
  refused : List Nat
  /-- lines of remote window words whose read has timed out: the instruction that waits for them reads all ones (R416) -/
  lostWords : List Nat := []
  /-- the record of a warp that has stopped dispatching in a team halt (R375); and whether it names the point where the warp
  stops (R376), rather than that of the fault that halted it -/
  halt : Option TrapRec
  haltStop : Bool := false
  /-- an undelivered loss of a sketch law (R414): counter and descriptor address; and the reports on their way -/
  lawLost : Option (Nat × Nat)
  lawDue : List (Nat × Nat)
  lastRetire : Nat
  /-- the watchdog's count of a warp that has yielded or been saved (R378) -/
  wdHeld : Option Nat := none
  tiles : AMap Word
  deriving DecidableEq, Repr

/-! ### Teams and grids -/

/-- States of a team (Table 5-4). -/
inductive TStatus where
  | pending | placed | yielding | saving | exited
  deriving DecidableEq, Repr

/-- A team barrier (Table 12-2) with the signature of its phase (R168), and the OR of the last completed one. -/
structure Bar where
  exp : Nat
  arr : Nat
  phase : Nat
  sig : Sig
  lastSig : Sig
  deriving DecidableEq, Repr

/-- A ring stage (R50) with its signature (R168) and the warps waiting on it, longest first (R51). -/
structure Stage where
  full : Bool
  phase : Nat
  rcnt : Nat
  sig : Sig
  waiters : List Nat
  deriving DecidableEq, Repr

/-- A scratch table entry (Table 6-2). -/
structure SttE where
  slot : Nat
  hass : Bool
  used : Bool
  own : Nat
  frame : Nat
  dirty : Bool
  res : Bool
  deriving DecidableEq, Repr

/-- A signature store (R167, R168): entries by sector, least recently used first; the overflow signature; the
time of the last eviction; and what an entry holds before its first release: all ones in a store that a resumed team
starts with. -/
structure SigStore where
  ents : List (Nat × Sig)
  ovf : Sig
  lastEvict : Nat
  base : Sig := 0
  deriving DecidableEq, Repr

/-- A posted receive or held completion slot of a team (R188, R189). -/
structure RSlot where
  posted : Bool
  order : Nat
  src : Nat
  srcMask : Nat
  tag : Nat
  tagMask : Nat
  buf : Nat
  ctx : Nat
  len : Nat
  word : DWord
  deriving DecidableEq, Repr

/-- A team. -/
structure Team where
  grid : Nat
  idx : Nat
  status : TStatus
  cluster : Nat
  lcluster : Nat
  nwarps : Nat
  bars : List Bar
  rings : List (List Stage)
  stt : AMap SttE
  scrSig : SigStore
  fstat : Nat
  pqdl : Nat
  deadline : Option Nat
  tdl : Nat
  decisions : Nat
  rslots : AMap RSlot
  forced : Bool
  halted : Option Nat
  savePhase : Nat
  saveWaited : Bool
  blockOff : Nat
  /-- bytes of its blocks in the save area -/
  blockLen : Nat
  thnd : Nat
  wdlog : Nat
  deriving DecidableEq, Repr

/-- A grid: the record as copied, its identity, and how far it has come (chapter 03). -/
structure Grid where
  ctx : Nat
  queue : Nat
  part : Nat
  arrival : Nat
  handle : Nat
  depth : Nat
  parent : Option Nat
  recAddr : Nat
  record : List Byte
  rank : Nat
  nrank : Nat
  /-- the fabric identities of its process group, by rank (R56); none for a grid on this package alone -/
  members : List Nat
  /-- priority class (Table 3-3; 7 for a reduce grid, R201) -/
  cls : Nat
  /-- decisions counted by its lowest team never placed (R91) -/
  decisions : Nat
  /-- for a pod-spanning grid: the package and handle, or queue index and order, that name it (R59) -/
  launcher : Nat
  launchKey : Nat
  isHost : Bool
  started : Bool
  retired : Bool
  rejected : Bool
  placed : Nat
  exitedTeams : Nat
  chs : AMap Byte
  chsBytes : Nat
  chipSig : SigStore
  step : Nat
  sent : List Nat
  reports : List Nat
  reported : Bool
  deriving DecidableEq, Repr

/-! ### Cores, caches, translation -/

/-- A line of an L1 (R120): the line named as R166 names it, its key index and class, the virtual leaf's place
for the write-back, valid bytes, dirty offsets, and when each of its four sectors became dirty. -/
structure L1Line where
  line : Nat
  key : Nat
  cls : Nat
  bytes : List (Nat × Byte)
  dirty : List Nat
  since : AMap Nat
  deriving DecidableEq, Repr

/-- A line of an L2 slice (R120 to R122). -/
structure L2Line where
  slice : Nat
  line : Nat
  key : Nat
  cls : Nat
  way : Nat
  age : Nat
  bytes : List (Nat × Byte)
  dirty : List Nat
  deriving DecidableEq, Repr

/-- A line that a mapping switch stranded (R125): the slice that holds it dirty, what memory held at the switch, and what has
been written to the line since under the new mapping. -/
structure Strand where
  slice : Nat
  line : Nat
  key : Nat
  base : List Byte
  hist : List (Nat × Byte)
  deriving DecidableEq, Repr

/-- A translation held in a buffer (R118): context, virtual page, its size, the leaf entry and where it lies. -/
structure Tlb where
  ctx : Nat
  vpage : Nat
  big : Bool
  leaf : DWord
  eaddr : Nat
  deriving DecidableEq, Repr

/-- A range-scoreboard entry (R170): team, space and bytes covered, and the operation that holds it. -/
structure Sbd where
  team : Nat
  sp : Space
  lo : Nat
  hi : Nat
  warp : Nat
  id : Nat
  deriving DecidableEq, Repr

/-- A frame of a core's scratch (R108, R111): the page it holds and when it was last accessed. -/
structure Frame where
  team : Nat
  page : Nat
  last : Nat
  deriving DecidableEq, Repr

/-- An entry of the path-pin table (R180): the path recorded for a line, and its packets not yet acknowledged. -/
structure Pin where
  link : Nat
  spine : Nat
  count : Nat
  deriving DecidableEq, Repr

/-- A core. -/
structure CoreSt where
  l1 : List L1Line
  tlb : List Tlb
  scoreboard : List Sbd
  banks : List (Option WarpId)
  frames : AMap Frame
  constCache : AMap Word
  codeCache : AMap DWord
  descCache : AMap (List Byte)
  pins : AMap Pin
  grow : List WarpId
  slotSerial : AMap Nat
  /-- when the last periodic invalidation ran (R167) -/
  lastInval : Nat
  deriving DecidableEq, Repr

/-- A scratch page miss queued for the Porter of a cluster (R110): the team's page, the core it must come to, the warp that
missed first, the cycle in which it occurred and the core it occurred on, and what waits for the page: warps of the team with
the number of the instruction, load, store, tile operation or copy. -/
structure Miss where
  team : Nat
  page : Nat
  core : Nat
  warp : Nat
  since : Nat := 0
  asker : Nat := 0
  waits : List (Nat × Nat) := []
  deriving DecidableEq, Repr

/-- A fill on its way into a slice (R348); `lost` says that a switch has taken its line's home elsewhere since it was sent. -/
structure Fill where
  slice : Nat
  line : Nat
  key : Nat
  cls : Nat
  lost : Bool := false
  deriving DecidableEq, Repr

/-- An open shadow (R171): its leaf's entry address, frames, partition, team, and the sectors an engine wrote. -/
structure Shadow where
  eaddr : Nat
  orig : Nat
  twin : Nat
  key : Nat
  part : Nat
  team : Nat
  written : List Nat
  deriving DecidableEq, Repr

/-! ### Queues, contexts, partitions, snapshots -/

/-- A launch record on its way to the dispatcher: its bytes as copied, and what names its grid. -/
structure DevRec where
  record : List Byte
  /-- its arrival number (R88) -/
  arrival : Nat
  recAddr : Nat
  ctx : Nat
  depth : Nat
  parent : Option Nat
  handle : Nat
  launcher : Nat
  launchKey : Nat
  isHost : Bool
  prio7 : Bool
  step : Nat
  deriving DecidableEq, Repr

/-- A launch queue (Tables 5-1 and 5-2) with its device ring (R87), oldest first, and the number of records it has held;
the arrival numbers of the records that still lie in the host ring (R88), those copied out, and the pod-spanning ones
counted (R59). -/
structure Queue where
  base : Nat
  en : Bool
  terr : Bool
  ctx : Nat
  part : Nat
  log2n : Nat
  tail : Nat
  head : Nat
  dev : List DevRec
  devCount : Nat
  hostArr : List Nat
  hostCopied : List DevRec
  podCount : Nat
  deriving DecidableEq, Repr

/-- A context entry (Table 22-5), with the marks of R379 and R357 and the event records waiting for room. -/
structure Ctx where
  v : Bool
  sysc : Bool
  preq : Bool
  lawf : Bool
  part : Nat
  root : Nat
  save : Nat
  failed : Bool
  heldResume : Bool
  events : List TrapRec
  requests : List Nat
  /-- EVBASE and LOG2E, as the device read them at the last placement of a team (R369) -/
  evbase : Nat := 0
  log2e : Nat := 0
  /-- the handle that the next `LAUNCH` of the context returns (R252, log 14) -/
  nextHandle : Nat := 1
  deriving DecidableEq, Repr

/-- One page of an armed snapshot set (R362 to R365). -/
structure SnPage where
  k : Nat
  eaddr : Nat
  frame : Nat
  key : Nat
  /-- marked at the cut, its leaf at TWIN 01 (R362) -/
  early : Bool
  /-- a change of the page waits on its drain (R171, R338, R365) -/
  ahead : Bool
  twin : Option Nat
  order : Nat
  drained : Bool
  acks : Nat
  resends : Nat
  /-- the bytes as sent, kept until the target has acknowledged them all; some write of the page timed out -/
  copy : List Byte
  lost : Bool
  deriving DecidableEq, Repr

/-- A snapshot engine (Tables 22-8, 22-9 and 25-6). -/
structure Snap where
  snset : DWord
  sncnt : DWord
  snstep : DWord
  sntgt : DWord
  tree : Nat
  ctx : Nat
  key : Nat
  trg : Nat
  trgen : Bool
  state : Nat
  done : Nat
  total : Nat
  fail : Bool
  cause : Nat
  page : Nat
  pages : List SnPage
  twins : Nat
  deriving DecidableEq, Repr

/-- An energy charge (R92): its number, when it ages out, and its amount. -/
structure Charge where
  k : Nat
  expiry : Nat
  mj : Nat
  deriving DecidableEq, Repr

/-- A partition (Tables 22-6, 25-1, 6-5), with what it has handed out. -/
structure Part where
  en : Bool
  stackMask : Nat
  hubMask : Nat
  pdom : Nat
  pchs : Nat
  sback : Nat
  sslots : Nat
  twbase : Nat
  twcnt : Nat
  trigFirst : Nat
  trigCnt : Nat
  ebud : Nat
  emeter : Nat
  drbase : Nat
  rcls : AMap Nat
  eclass : AMap Nat
  charges : List Charge
  chargeNo : Nat
  arrival : Nat
  slots : List Nat
  twins : List Nat
  exhausted : List Nat
  psva : Nat
  psFail : Bool
  psCtx : Nat
  /-- an answer is being delivered (R405): it is delivered within its step, so this reads 0 between steps -/
  psBusy : Bool
  ueaddr : Nat
  uesrc : Nat
  uecnt : Nat
  cecnt : Nat
  snap : Snap
  deriving DecidableEq, Repr

/-- Global and fabric-manager registers (Tables 22-2, 22-7, 22-10, 25-2). -/
structure HostRegs where
  qfmt : Nat
  pwrset : Nat
  ewin : Nat
  pwrNow : Nat
  ewinNow : Nat
  winStart : Nat
  epkg : Nat
  tlbiAll : Bool
  tlbiCtx : Nat
  tlbiva : Nat
  winbase : Nat
  winkey : Nat
  trqlist : Nat
  trqBusy : Bool
  trqOp : Nat
  trqCount : Nat
  trqTree : Nat
  trqstat : Nat
  /-- the members that the create request under way names -/
  trqMembers : List Nat
  kidx : Nat
  kdata : Nat
  ftmo : Nat
  stalecnt : Nat
  flagdrop : Nat
  msgdrop : Nat
  tcsel : Nat
  trssel : Nat
  /-- the request under way: its operation and the tree it names (R351) -/
  trqReq : Nat × Nat := (0, 0)
  /-- a key load that waits for a snapshot to let a dirty line go: its index and the key to install (R359, R364) -/
  keyPend : Option (Nat × Nat) := none
  /-- host writes through BAR2 that wait for a page of a snapshot: address, key index, bytes, oldest first (R177, R364) -/
  barPend : List (Nat × Nat × List Byte) := []
  deriving DecidableEq, Repr

/-- The READY bits (R353). -/
structure Ready where
  compute : Bool
  hbm : Bool
  fabric : Bool
  snapshot : Bool
  keys : Bool
  energy : Bool
  deriving DecidableEq, Repr

/-! ### Fabric -/

/-- Who waits for the answer to a packet. -/
inductive ReqOwner where
  /-- a load or atomic of a warp, for these lanes -/
  | load (w : WarpId) (id : Nat)
  /-- a store, `RED`, `SEND` of a warp -/
  | store (w : WarpId) (id : Nat)
  /-- an engine operation of a warp -/
  | copy (w : WarpId) (id : Nat)
  /-- a unit of `SKMRG` read from another package -/
  | merge (w : WarpId) (id unit : Nat)
  /-- a write of the Carter -/
  | carter (part page : Nat)
  /-- a constant-window or clause word of a remote page, for a core's read-only cache -/
  | cache (core : Nat) (code : Bool)
  /-- a line of a remote page that `CPF` has asked for (R301) -/
  | prefetch (core : Nat)
  /-- bytes that an instruction in a warp's window waits for (`LAUNCH`, `TARM`, `SKMRG`, `SEND`) -/
  | fetch (w : WarpId) (id : Nat)
  /-- a packet nobody waits for -/
  | nobody
  deriving DecidableEq, Repr

/-- A request made and not answered (R183, R415). For a read of a line for a cache, `slot` is its key index, and `serial` 1 says
that its answer is not placed there, since a write or an invalidation has come between; `fwd` holds the bytes that older stores of the warp gave
the load as it was sent (R74); `lanes` names the lanes that wait for a load or an atomic, and the warps that wait for a
constant-cache line. -/
structure Req where
  id : Nat
  owner : ReqOwner
  kind : PktKind
  fid : Nat
  link : Nat
  core : Nat
  slot : Nat
  serial : Nat
  pin : Option Nat
  sent : Nat
  va : Nat
  lanes : List (Nat × Nat)
  reads : List CopyRow
  fwd : List (Option Byte)
  /-- whether its packet counts in the ordered stream `serial` of its slot (R185), and whether it has left (R183) -/
  stream : Bool := false
  out : Bool := false
  deriving DecidableEq, Repr

/-- A stream of writes as its destination counts it (R186). -/
structure DStream where
  sfid : Nat
  sinc : Nat
  score : Nat
  swarp : Nat
  serial : Nat
  count : Nat
  entry : Bool
  close : Option Nat
  since : Nat
  deriving DecidableEq, Repr

/-- An ordered flag held at its destination (R186), in the reorder buffer or at the ingress. -/
structure HeldFlag where
  pkt : Packet
  since : Nat
  waiting : Bool
  deriving DecidableEq, Repr

/-- A landing registration (R193, R195). -/
structure Landing where
  ctx : Nat
  ident : Nat
  buf : Nat
  len : Nat
  ctr : Option Nat
  closed : Bool
  /-- deliveries of which some packets have come: tree, sender, number of the delivery, bytes landed (R194, R195) -/
  begun : List (Nat × Nat × Nat × Nat) := []
  deriving DecidableEq, Repr

/-- An armed operation (R196). -/
structure Armed where
  handle : Nat
  ctr : Nat
  thr : Int
  ctx : Nat
  team : Nat
  order : Nat
  opRec : List Byte
  /-- fired, and not yet able to act (R87, R173) -/
  due : Bool
  /-- the warp whose instruction fired it, with that instruction's number: the release that it acts after (R197) -/
  cause : Option (WarpId × Nat) := none
  deriving DecidableEq, Repr

/-- A tree this package belongs to (R203, R204). -/
structure Tree where
  ident : Nat
  members : List Nat
  broken : Bool
  asg : Nat
  cmp : Nat
  zeroSteps : List Nat
  deriving DecidableEq, Repr

/-- What other packages and the host see of this one, beside packets: answers and signals. -/
inductive HostOut where
  | data (off : Nat) (bytes : List Byte)
  | reg (off : Nat) (w : DWord)
  | msix (vector : Nat)
  deriving DecidableEq, Repr

end Sys2Proof.Machine
end

