-- ==== Sys2Proof/Machine/State.lean ====
section
/-! DEFINITION. The state of one Ouvale LM9 package, the machine right after reset, and the reasons a step stops. -/

namespace Sys2Proof.Machine

/-- Why the machine stops with a fault: there is no such reason. Every exception the spec describes is taken as a
next state, and the spec gives every access of the device a place or a fate. Safe. -/
inductive Fault where
  deriving DecidableEq, Repr

/-- Why the model declines to run an instruction. -/
inductive Refusal where
  /-- The instruction has no meaning in the model yet. Raised by the arms of `exec` alone. Safe. -/
  | notModelled (mnemonic : String)
  /-- An instruction of a warp is executed while no warp acts (`State.cur` names none). Raised by every instruction
  of groups 0 to 7; no run of `step` reaches it. Safe. -/
  | noWarp
  deriving DecidableEq, Repr

/-- What the machine does next: the model's own schedule (log 2). -/
inductive Action where
  /-- a row of the opcode table happens -/
  | event (i : Instr)
  /-- a warp that holds a port dispatches its next instruction -/
  | turn (w : WarpId)
  /-- cycles pass -/
  | tick (n : Nat)
  /-- an L1 evicts a line (R120) -/
  | evictL1 (core line key : Nat)
  /-- a translation buffer drops an entry (R118) -/
  | evictTlb (core ctx vpage : Nat)
  /-- a constant-cache word, a clause-cache word, a descriptor-cache entry is dropped -/
  | dropConst (core addr : Nat)
  | dropCode (core addr : Nat)
  | dropDesc (core addr : Nat)
  /-- the packet longest queued on a link leaves the package -/
  | linkSend (link : Nat)
  /-- the energy meters of a partition and of the package read these values -/
  | meter (part mj pkg : Nat)
  /-- a fill starts on its way to the home slice of a line, or reaches its slice (R301, R348) -/
  | fillStart (pa key cls : Nat)
  | fillArrive (k : Nat)
  /-- a tree that another package asked for is created with this package among its members, or is released (R203) -/
  | treeJoin (tree : Nat) (members : List Nat)
  | treeLeave (tree : Nat)
  /-- the switches combine a chunk of every member and deliver it here (R199, R202): the members' chunks, each with its port,
  as each leaf switch adds them, and each leaf with its port of the spine, as the spine adds the leaves -/
  | switchReduce (tree step idx : Nat) (parts : List (Nat × List (Nat × List Byte)))
  /-- the host reads a register, or eight bytes of the capability list -/
  | hostRead (off : Nat)
  | capRead (off : Nat)
  deriving DecidableEq, Repr

/-- Caches, memories and translation of the package. -/
structure Mem where
  cores : AMap CoreSt
  l2 : List L2Line
  l2sig : AMap SigStore
  fills : List Fill
  hbm : Memory
  stamps : AMap Nat
  frameMem : Memory
  hubTlb : AMap (List Tlb)
  l2dom : DWord
  l2hash : List DWord
  misses : AMap (List Miss)
  keys : AMap Nat
  shadows : List Shadow
  redirs : List (Nat × Nat × Nat)
  /-- the lines that mapping switches have stranded (R125) -/
  strands : List Strand := []
  deriving DecidableEq, Repr

/-- The fabric port and what the package holds for it (chapter 09). -/
structure Fabric where
  fid : Nat
  inc : Nat
  /-- a training has given the package its identity, which it keeps (R187) -/
  joined : Bool
  proto : Nat
  linksUp : BitVec 16
  peers : AMap Nat
  links : AMap (List Packet)
  reqs : List Req
  nextReq : Nat
  streams : List DStream
  flags : List HeldFlag
  overflow : List Packet
  msgNext : List (Nat × Nat × Nat × Nat)
  msgHeld : List Packet
  landings : List Landing
  triggers : AMap Int
  armed : List Armed
  nextArm : Nat
  /-- the arming order of the next armed operation (R197) -/
  nextOrder : Nat := 1
  nextPost : Nat
  trees : List Tree
  inbox : List Packet
  /-- grids whose reduce grid has yet to enter its device ring (R201) -/
  reduces : List Nat
  /-- packets of an atomic whose later lanes have yet to come (R184) -/
  atomLanes : List Packet := []
  /-- reduced chunks of which some packets have come: tree, step, index, bytes landed (R199) -/
  chunkParts : List (Nat × Nat × Nat × Nat) := []
  /-- multicast deliveries refused of which some packets have yet to come: tree, sender, number, bytes refused (R419) -/
  refusedMcast : List (Nat × Nat × Nat × Nat) := []
  deriving DecidableEq, Repr

/-- The state of the package. -/
structure State where
  /-- core cycles since package reset, `sr_clock` (R247) -/
  clock : Nat
  /-- the model's own counter of steps, the argument of its free values (log 1) -/
  stepNo : Nat
  /-- the model's own schedule (log 2) -/
  agenda : List Action
  /-- the warp whose instruction is being run (log 2) -/
  cur : Option WarpId
  warps : AMap Warp
  teams : AMap Team
  grids : AMap Grid
  nextTeam : Nat
  nextGrid : Nat
  nextHandle : Nat
  mem : Mem
  queues : AMap Queue
  ctxs : AMap Ctx
  parts : AMap Part
  host : HostRegs
  ready : Ready
  fab : Fabric
  hostOut : List HostOut
  deriving DecidableEq, Repr

/-! ### Reset values -/

/-- A signature store with nothing in it. -/
def SigStore.empty : SigStore := { ents := [], ovf := 0, lastEvict := 0 }

/-- A core with nothing resident. -/
def CoreSt.reset : CoreSt :=
  { l1 := [], tlb := [], scoreboard := [], banks := [none, none, none, none, none, none, none, none], frames := [],
    constCache := [], codeCache := [], descCache := [], pins := [], grow := [], slotSerial := [], lastInval := 0 }

/-- A launch queue at reset (Table 5-2: LOG2N is 4). -/
def Queue.reset : Queue :=
  { base := 0, en := false, terr := false, ctx := 0, part := 0, log2n := 4, tail := 0, head := 0, dev := [],
    devCount := 0, hostArr := [], hostCopied := [], podCount := 0 }

/-- A context entry at reset (Table 22-5). -/
def Ctx.reset : Ctx :=
  { v := false, sysc := false, preq := false, lawf := false, part := 0, root := 0, save := 0, failed := false,
    heldResume := false, events := [], requests := [] }

/-- A snapshot engine at reset (Tables 22-9 and 25-6). -/
def Snap.reset : Snap :=
  { snset := 0, sncnt := 0, snstep := 0, sntgt := 0, tree := 0, ctx := 0, key := 0, trg := 0, trgen := false,
    state := 0, done := 0, total := 0, fail := false, cause := 0, page := 0, pages := [], twins := 0 }

/-- A partition at reset (R358). -/
def Part.reset : Part :=
  { en := false, stackMask := 0, hubMask := 0, pdom := 0, pchs := 0, sback := 0, sslots := 0, twbase := 0, twcnt := 0,
    trigFirst := 0, trigCnt := 0, ebud := 0, emeter := 0, drbase := 0, rcls := [], eclass := [], charges := [],
    chargeNo := 0, arrival := 0, slots := [], twins := [], exhausted := [], psva := 0, psFail := false, psCtx := 0,
    psBusy := false, ueaddr := 0, uesrc := 0, uecnt := 0, cecnt := 0, snap := Snap.reset }

/-- The global registers at reset (Tables 22-2 and 25-2). -/
def HostRegs.reset : HostRegs :=
  { qfmt := 1, pwrset := 32, ewin := 10, pwrNow := 32, ewinNow := 10, winStart := 0, epkg := 0, tlbiAll := false,
    tlbiCtx := 0, tlbiva := 0, winbase := 0, winkey := 0, trqlist := 0, trqBusy := false, trqOp := 0, trqCount := 0,
    trqTree := 0, trqstat := 0, trqMembers := [], kidx := 0, kdata := 0, ftmo := 26, stalecnt := 0, flagdrop := 0, msgdrop := 0,
    tcsel := 0, trssel := 0 }

/-- No function is ready (R353). -/
def Ready.reset : Ready :=
  { compute := false, hbm := false, fabric := false, snapshot := false, keys := false, energy := false }

/-- Caches empty, memory with nothing listed, one interleave domain of all 128 slices (R123). -/
def Mem.reset : Mem :=
  { cores := [], l2 := [], l2sig := [], fills := [], hbm := [], stamps := [], frameMem := [], hubTlb := [],
    l2dom := 0, l2hash := [0x87000001FFFFFFFF#64, 0, 0, 0, 0, 0, 0, 0], misses := [], keys := [], shadows := [],
    redirs := [] }

/-- The fabric port before training. -/
def Fabric.reset : Fabric :=
  { fid := 0, inc := 0, joined := false, proto := 0, linksUp := 0, peers := [], links := [], reqs := [], nextReq := 1, streams := [],
    flags := [], overflow := [], msgNext := [], msgHeld := [], landings := [], triggers := [], armed := [],
    nextArm := 1, nextPost := 0, trees := [], inbox := [], reduces := [] }

/-- The machine right after package reset (R353, R358). -/
def State.reset : State :=
  { clock := 0, stepNo := 0, agenda := [], cur := none, warps := [], teams := [], grids := [], nextTeam := 0,
    nextGrid := 0, nextHandle := 1, mem := Mem.reset, queues := [], ctxs := [], parts := [], host := HostRegs.reset,
    ready := Ready.reset, fab := Fabric.reset, hostOut := [] }

end Sys2Proof.Machine
end

