-- ==== Sys2Proof/Machine/Maps.lean ====
section
/-! DEFINITION. Finite maps with rising keys, and memory as such a map with no zero byte listed. -/

namespace Sys2Proof.Machine

variable {α β : Type}

/-- The value at a key, if listed. -/
def amFind : AMap α → Nat → Option α
  | [], _ => none
  | (k, v) :: m, a => if a = k then some v else amFind m a

/-- The value at a key, or what an unlisted key holds. -/
def amGet (d : α) (m : AMap α) (a : Nat) : α := (amFind m a).getD d

/-- The map with a key listed at a value. -/
def amSet : AMap α → Nat → α → AMap α
  | [], a, x => [(a, x)]
  | (k, v) :: m, a, x =>
    if a < k then (a, x) :: (k, v) :: m
    else if a = k then (a, x) :: m
    else (k, v) :: amSet m a x

/-- The map with a key not listed. -/
def amErase : AMap α → Nat → AMap α
  | [], _ => []
  | (k, v) :: m, a => if a = k then amErase m a else (k, v) :: amErase m a

/-- The map with a key at a value, not listed where the value is what an unlisted key holds. -/
def amPut [DecidableEq α] (d : α) (m : AMap α) (a : Nat) (x : α) : AMap α :=
  if x = d then amErase m a else amSet m a x

/-- The map with the value at a listed key changed. -/
def amMod (m : AMap α) (a : Nat) (f : α → α) : AMap α :=
  match amFind m a with
  | none => m
  | some x => amSet m a (f x)

/-- Keys strictly rising. -/
def amSorted : AMap α → Bool
  | [] => true
  | [_] => true
  | (k, _) :: (k', v') :: m => k < k' && amSorted ((k', v') :: m)

/-! ### Memory: an unlisted byte reads 0 (log 8) -/

/-- The canonical form of memory: addresses strictly rising, no zero byte listed. -/
def Memory.wf (m : Memory) : Bool := amSorted m && m.all fun c => c.2 != 0

/-- One byte. -/
def Memory.get (m : Memory) (a : Nat) : Byte := amGet 0 m a

/-- One byte written. -/
def Memory.set (m : Memory) (a : Nat) (b : Byte) : Memory := amPut 0 m a b

/-- `n` bytes from an address. -/
def Memory.read (m : Memory) (a n : Nat) : List Byte := (List.range n).map fun k => Memory.get m (a + k)

/-- Bytes written from an address. -/
def Memory.write (m : Memory) (a : Nat) : List Byte → Memory
  | [] => m
  | b :: bs => Memory.write (Memory.set m a b) (a + 1) bs

/-- (offset, byte) pairs written from an address. -/
def Memory.patch (m : Memory) (a : Nat) : List (Nat × Byte) → Memory
  | [] => m
  | (o, b) :: l => Memory.patch (Memory.set m (a + o) b) a l

/-- A range set to zero. -/
def Memory.clear (m : Memory) (a n : Nat) : Memory := m.filter fun c => c.1 < a || a + n ≤ c.1

/-- The listed bytes of a range, as offsets from its start. -/
def Memory.slice (m : Memory) (a n : Nat) : List (Nat × Byte) :=
  (m.filter fun c => a ≤ c.1 && c.1 < a + n).map fun c => (c.1 - a, c.2)

/-- A range copied onto another of the same memory. -/
def Memory.copy (m : Memory) (src dst n : Nat) : Memory :=
  Memory.patch (Memory.clear m dst n) dst (Memory.slice m src n)

/-! ### Signature stores (R167, R168) -/

/-- All ones: a signature that names every line. -/
def sigOnes : Sig := BitVec.allOnes 1024

/-- The signature an acquire of a sector receives, and the store with that entry used last. -/
def SigStore.lookup (st : SigStore) (sector : Nat) : Sig × SigStore :=
  match st.ents.find? (fun e => e.1 == sector) with
  | some e => (e.2, { st with ents := st.ents.filter (fun x => x.1 != sector) ++ [e] })
  | none => (st.ovf, st)

/-- A release of a sector recorded; a full store of `cap` entries first evicts its least recently used. A new entry starts as
`base` says: at all ones in the store of a resumed team, whose entries all start so (R168). -/
def SigStore.record (st : SigStore) (cap now sector : Nat) (sig : Sig) : SigStore :=
  match st.ents.find? (fun e => e.1 == sector) with
  | some e => { st with ents := st.ents.filter (fun x => x.1 != sector) ++ [(sector, e.2 ||| sig)] }
  | none =>
    let sig := st.base ||| sig
    if st.ents.length < cap then { st with ents := st.ents ++ [(sector, sig)] }
    else
      match st.ents with
      | [] => st
      | e :: es => { st with ents := es ++ [(sector, sig)], ovf := st.ovf ||| e.2, lastEvict := now }

/-- The store a resumed team starts with (R168): its first acquire drops every clean line. -/
def SigStore.ones (now : Nat) : SigStore := { ents := [], ovf := sigOnes, lastEvict := now, base := sigOnes }

end Sys2Proof.Machine
end

