-- ==== Sys2Proof/Machine/Ops.lean ====
section
/-! DEFINITION. The named operations over the state: warps, teams, grids, contexts, partitions, cores; lanes and
masks; registers, predicates and tags; event records. -/

namespace Sys2Proof.Machine

/-! ### Parts of the state -/

/-- The key of a warp in the map of warps. -/
def wkey (w : WarpId) : Nat := w.team * 64 + w.widx
/-- The warp of a key. -/
def widOf (k : Nat) : WarpId := ⟨k / 64, k % 64⟩

namespace State

def warp? (s : State) (w : WarpId) : Option Warp := amFind s.warps (wkey w)
def setWarp (s : State) (w : WarpId) (x : Warp) : State := { s with warps := amSet s.warps (wkey w) x }
def modWarp (s : State) (w : WarpId) (f : Warp → Warp) : State := { s with warps := amMod s.warps (wkey w) f }
def dropWarp (s : State) (w : WarpId) : State := { s with warps := amErase s.warps (wkey w) }
def team? (s : State) (t : Nat) : Option Team := amFind s.teams t
def setTeam (s : State) (t : Nat) (x : Team) : State := { s with teams := amSet s.teams t x }
def modTeam (s : State) (t : Nat) (f : Team → Team) : State := { s with teams := amMod s.teams t f }
def grid? (s : State) (g : Nat) : Option Grid := amFind s.grids g
def setGrid (s : State) (g : Nat) (x : Grid) : State := { s with grids := amSet s.grids g x }
def modGrid (s : State) (g : Nat) (f : Grid → Grid) : State := { s with grids := amMod s.grids g f }
def ctx (s : State) (c : Nat) : Ctx := amGet Ctx.reset s.ctxs c
def setCtx (s : State) (c : Nat) (x : Ctx) : State := { s with ctxs := amPut Ctx.reset s.ctxs c x }
def modCtx (s : State) (c : Nat) (f : Ctx → Ctx) : State := s.setCtx c (f (s.ctx c))
def part (s : State) (p : Nat) : Part := amGet Part.reset s.parts p
def setPart (s : State) (p : Nat) (x : Part) : State := { s with parts := amPut Part.reset s.parts p x }
def modPart (s : State) (p : Nat) (f : Part → Part) : State := s.setPart p (f (s.part p))
def queue (s : State) (q : Nat) : Queue := amGet Queue.reset s.queues q
def setQueue (s : State) (q : Nat) (x : Queue) : State := { s with queues := amPut Queue.reset s.queues q x }
def modQueue (s : State) (q : Nat) (f : Queue → Queue) : State := s.setQueue q (f (s.queue q))
def setMem (s : State) (m : Mem) : State := { s with mem := m }
def modMem (s : State) (f : Mem → Mem) : State := { s with mem := f s.mem }
def setFab (s : State) (f : Fabric) : State := { s with fab := f }
def modFab (s : State) (f : Fabric → Fabric) : State := { s with fab := f s.fab }
def setHost (s : State) (h : HostRegs) : State := { s with host := h }
def modHost (s : State) (f : HostRegs → HostRegs) : State := { s with host := f s.host }
def setCur (s : State) (w : Option WarpId) : State := { s with cur := w }
def setAgenda (s : State) (l : List Action) : State := { s with agenda := l }
def setReady (s : State) (r : Ready) : State := { s with ready := r }
def core (s : State) (c : Nat) : CoreSt := amGet CoreSt.reset s.mem.cores c
def setCore (s : State) (c : Nat) (x : CoreSt) : State :=
  s.setMem { s.mem with cores := amPut CoreSt.reset s.mem.cores c x }
def modCore (s : State) (c : Nat) (f : CoreSt → CoreSt) : State := s.setCore c (f (s.core c))

/-- Something the package shows the host, after what it has shown before. -/
def emit (s : State) (o : HostOut) : State := { s with hostOut := s.hostOut ++ [o] }

/-- The grid of a team, with its number. -/
def gridOf? (s : State) (t : Nat) : Option (Nat × Grid) :=
  match s.team? t with
  | none => none
  | some tm => (s.grid? tm.grid).map fun g => (tm.grid, g)

/-- The context of a team's grid. -/
def ctxOf (s : State) (t : Nat) : Nat := ((s.gridOf? t).map fun g => g.2.ctx).getD 0
/-- The partition of a team's grid. -/
def partOf (s : State) (t : Nat) : Nat := ((s.gridOf? t).map fun g => g.2.part).getD 0
/-- Whether a team runs in a system context (R356). -/
def isSys (s : State) (t : Nat) : Bool := (s.ctx (s.ctxOf t)).sysc
/-- The warps of a team, in index order. -/
def warpsOf (s : State) (t : Nat) : List (WarpId × Warp) :=
  (s.warps.filter fun e => e.1 / 64 == t).map fun e => (widOf e.1, e.2)
/-- The warps resident on a core. -/
def warpsOn (s : State) (c : Nat) : List (WarpId × Warp) :=
  (s.warps.filter fun e => e.2.core == c && e.2.status != .exited && e.2.status != .saved).map
    fun e => (widOf e.1, e.2)
/-- The core a warp runs on. -/
def coreOf (s : State) (w : WarpId) : Nat := ((s.warp? w).map Warp.core).getD 0

end State

/-! ### Launch record fields (Table 3-2) -/

/-- A little-endian field of a byte list. -/
def bytesNat (l : List Byte) (off n : Nat) : Nat := leNat ((l.drop off).take n)

namespace Grid

def hdr (g : Grid) : Nat := bytesNat g.record 0x000 8
def entry (g : Grid) : Nat := bytesNat g.record 0x008 8
def gdx (g : Grid) : Nat := bytesNat g.record 0x010 4
def gdy (g : Grid) : Nat := bytesNat g.record 0x014 4
def gdz (g : Grid) : Nat := bytesNat g.record 0x018 4
def warps (g : Grid) : Nat := bytesNat g.record 0x01C 1 % 128
def role (g : Grid) (i : Nat) : Nat := bytesNat g.record 0x020 16 / 2 ^ (2 * i) % 4
def rgc (g : Grid) : Nat := bytesNat g.record 0x030 1
def rgm (g : Grid) : Nat := bytesNat g.record 0x031 1
def rgv (g : Grid) : Nat := bytesNat g.record 0x032 1
def atiles (g : Grid) : Nat := bytesNat g.record 0x033 1
def vscr (g : Grid) : Nat := bytesNat g.record 0x038 4
def clm (g : Grid) : Nat := bytesNat g.record 0x03C 4
def chsSize (g : Grid) : Nat := bytesNat g.record 0x040 8
def pqdl (g : Grid) : Nat := let v := bytesNat g.record 0x048 8; if v = 0 then 65536 else v
def pgt (g : Grid) : Nat := bytesNat g.record 0x050 8
def ctrig (g : Grid) : Nat := bytesNat g.record 0x058 4
def rbase (g : Grid) : Nat := bytesNat g.record 0x060 8
def rglr (g : Grid) : Nat := bytesNat g.record 0x068 8
def chunk (g : Grid) : Nat := bytesNat g.record 0x070 4
def tree (g : Grid) : Nat := bytesNat g.record 0x074 2
def ctrg (g : Grid) : Nat := bytesNat g.record 0x076 2 % 4096
def cop (g : Grid) : Nat := bytesNat g.record 0x078 1
def cfmt (g : Grid) : Nat := bytesNat g.record 0x079 1
def cben (g : Grid) : Bool := bytesNat g.record 0x07A 1 % 2 == 1
def slot (g : Grid) (n : Nat) : Slot := Slot.ofBytes ((g.record.drop (0x080 + 16 * n)).take 16)
def wbase (g : Grid) (n : Nat) : Nat := bytesNat g.record (0x100 + 8 * n) 8
def ringWord (g : Grid) (n : Nat) : Nat := bytesNat g.record (0x140 + 2 * n) 2
/-- Stages of ring n (Table 3-7): 0 means 16. -/
def nstg (g : Grid) (n : Nat) : Nat := let v := g.ringWord n % 16; if v = 0 then 16 else v
/-- Releases that empty a stage of ring n: 0 means 1. -/
def cons (g : Grid) (n : Nat) : Nat := let v := g.ringWord n / 16 % 64; if v = 0 then 1 else v
/-- Deterministic mode (Table 3-3). -/
def det (g : Grid) : Bool := g.hdr / 2 ^ 16 % 2 == 1
def eclass (g : Grid) : Nat := g.hdr / 2 ^ 32 % 256
/-- `sr_ftv` (Table 10-4): FTV 0 selects version 1. -/
def ftv (g : Grid) : Nat := let v := g.hdr / 2 ^ 48 % 256; if v = 0 then 1 else v
/-- Teams of the grid (R33). -/
def total (g : Grid) : Nat := g.gdx * g.gdy * g.gdz
/-- The teams this package runs: from the first to just before the second (R57, R200). -/
def share (g : Grid) : Nat × Nat :=
  if g.cben || g.nrank = 0 then (0, g.total)
  else (g.rank * g.total / g.nrank, (g.rank + 1) * g.total / g.nrank)
/-- Initial allocation of a role in granules (R40). -/
def granules (g : Grid) (role : Nat) : Nat :=
  if role = 1 then g.rgc else if role = 2 then g.rgm else g.rgv
/-- Tiles of warp i (R40): ATILES, or 16 shared over the matrix warps of its core. -/
def tileGrant (g : Grid) (i : Nat) : Nat :=
  if g.role i != 2 then 0
  else if g.atiles != 0 then g.atiles
  else 16 / ((List.range g.warps).filter fun j => g.role j == 2 && j % 4 == i % 4).length

end Grid

/-! ### Lanes and masks -/

/-- The mask of the lanes that meet a condition. -/
def maskOf (f : Nat → Bool) : Mask :=
  BitVec.ofNat 32 (lanes.foldl (fun acc i => if f i then acc + 2 ^ i else acc) 0)

/-- The lanes of a mask, ascending. -/
def laneList (m : Mask) : List Nat := lanes.filter fun i => m.getLsbD i

/-- The lowest lane of a mask. -/
def lowest (m : Mask) : Option Nat := lanes.find? fun i => m.getLsbD i

/-- All 32 lanes. -/
def allLanes : Mask := 0xFFFFFFFF#32

/-- The mask of one lane. -/
def laneBit (i : Nat) : Mask := maskOf fun k => k == i

/-! ### Registers and tags -/

/-- A register that reads zero in every lane, tagged uniform (R425). -/
def zeroReg : VReg := { tag := .uniform, words := lanes.map fun _ => 0 }

/-- A register with one word in every lane. -/
def uniformReg (x : Word) : VReg := { tag := .uniform, words := lanes.map fun _ => x }

/-- The word of a lane. -/
def VReg.at (r : VReg) (i : Nat) : Word := r.words.getD i 0

/-- The stride of an affine register, modulo 2^32 (R76). -/
def VReg.stride (r : VReg) : Word := r.at 1 - r.at 0

/-- The tag code of a register (R78). -/
def Tag.code : Tag → Nat
  | .uniform => 0
  | .affine => 1
  | .general => 2

namespace Warp

/-- The register of a field number: v0 to v767, h0 to h31 at 960, `vz` at 1023 (Table 11-4). -/
def reg (w : Warp) (n : Nat) : VReg :=
  if n < 768 then amGet zeroReg w.regs n
  else if n < 992 then amGet zeroReg w.hregs (n - 960)
  else zeroReg

/-- The whole contents of a register replaced; writes to `vz` are discarded (R228). A write supersedes the
mapping of the name, so a load still in flight to the old one no longer reaches it (R81). -/
def setReg (w : Warp) (n : Nat) (r : VReg) : Warp :=
  if n < 768 then { w with regs := amPut zeroReg w.regs n r, pend := amErase w.pend n }
  else if n < 992 then { w with hregs := amPut zeroReg w.hregs (n - 960) r, pend := amErase w.pend n }
  else w

/-- A result written in the lanes of a mask (R72, R76): an empty mask writes nothing; a partial one keeps the
other lanes and tags general. -/
def writeReg (w : Warp) (n : Nat) (m : Mask) (tag : Tag) (f : Nat → Word) : Warp :=
  if m = 0 then w
  else
    let old := w.reg n
    w.setReg n
      { tag := if m = allLanes then tag else .general
        words := lanes.map fun i => if m.getLsbD i then f i else old.at i }

/-- A predicate (R24). -/
def pred (w : Warp) (n : Nat) : Mask := amGet 0 w.preds n

/-- A predicate written in the lanes of a mask. -/
def writePred (w : Warp) (n : Nat) (m : Mask) (f : Nat → Bool) : Warp :=
  let old := w.pred n
  { w with preds := amPut 0 w.preds n (maskOf fun i => if m.getLsbD i then f i else old.getLsbD i) }

/-- The word of a register operand in a lane. -/
def rd (w : Warp) (r : Reg) (i : Nat) : Word := (w.reg r.field).at i

/-- The upper register of a pair: `vz` is its own upper word. -/
def upper (n : Nat) : Nat := if n = 1023 then 1023 else n + 1

/-- The 64-bit value of a pair operand in a lane (R235). -/
def rd64n (w : Warp) (n i : Nat) : DWord := joinWords ((w.reg n).at i) ((w.reg (upper n)).at i)
def rd64 (w : Warp) (p : Pair) (i : Nat) : DWord := w.rd64n p.field i

/-- A 64-bit result written to a pair (wr64, R235), each word tagged by the producer's rule (R76). -/
def writePair (w : Warp) (n : Nat) (m : Mask) (tlo thi : Tag) (f : Nat → DWord) : Warp :=
  (w.writeReg n m tlo fun i => loWord (f i)).writeReg (upper n) m thi fun i => hiWord (f i)

/-- The lanes a guard leaves (R26). -/
def guardMask (w : Warp) (g : Guard) : Mask :=
  match g with
  | .always => allLanes
  | .pred n neg => if neg then ~~~(w.pred n) else w.pred n

/-- Whether a warp is in handler state: it holds a bank. -/
def inHandler (w : Warp) : Bool := w.status == .handler

end Warp

/-! ### Event records (R369, R370) -/

/-- A record with every field zero. -/
def TrapRec.zero : TrapRec :=
  { code := 0, arg := 0, sub := 0, skid := 0, halt := false, addrv := false, savef := false, nest := false,
    hdr := false, lane := 0, widx := 0, pcore := 0, pc := 0, insn := 0, mask := 0, resume := 0, addr := 0, clk := 0,
    aux := 0, live := 0, owner := none }

/-- The 64 bytes of a record (Table 23-3); `pcore` says whether the physical core is shown. -/
def TrapRec.bytes (r : TrapRec) (pcore : Bool) : List Byte :=
  leBytes 4 (r.code % 256 + 2 ^ 8 * (r.arg % 256) + 2 ^ 16 * (r.sub % 256) + 2 ^ 24 * (r.skid % 256)) ++
  leBytes 4 (bit r.halt + 2 * bit r.addrv + 4 * bit r.savef + 8 * bit r.nest + 16 * bit r.hdr + 32 * (r.lane % 32) +
    2 ^ 10 * (r.widx % 64) + (if pcore then 2 ^ 23 * (r.pcore % 512) else 0)) ++
  leBytes 8 r.pc ++ leBytes 8 r.insn.toNat ++ leBytes 4 r.mask.toNat ++ leBytes 4 r.resume.toNat ++
  leBytes 8 r.addr ++ leBytes 8 r.clk ++ leBytes 8 r.aux ++ leBytes 4 0 ++ leBytes 4 r.live.toNat

namespace State

/-- A record given to a context's event ring, behind the records already waiting for room (R369). -/
def postEvent (s : State) (c : Nat) (r : TrapRec) : State :=
  s.modCtx c fun x => { x with events := x.events ++ [{ r with clk := s.clock }] }

/-- The smallest number not in a list, below a bound. -/
def lowestFree (used : List Nat) (n : Nat) : Option Nat := (List.range n).find? fun k => !used.contains k

/-! ### Pre-emption of a context -/

/-- The teams of a context, with their numbers. -/
def teamsOf (s : State) (c : Nat) : List (Nat × Team) := s.teams.filter fun t => s.ctxOf t.1 == c

/-- The deadline of a team's record (R37, R94). -/
def pqdlOf (s : State) (t : Nat) : Nat := ((s.gridOf? t).map fun g => g.2.pqdl).getD 65536

/-- A context's request bit set (R94): each placed team enters YIELDING and its deadline starts to count. -/
def preempt (s : State) (c : Nat) : State :=
  if (s.ctx c).preq then s
  else
    (s.teamsOf c).foldl (fun s t =>
      if t.2.status = .placed then
        s.setTeam t.1 { t.2 with status := .yielding, pqdl := s.pqdlOf t.1, deadline := some (s.clock + s.pqdlOf t.1) }
      else s) (s.modCtx c fun x => { x with preq := true, heldResume := false })

end State

/-! ### Taking an exception (R367 to R376), and returning from one (R255, R373) -/

/-- A fault to report: its code, the lanes that form the resume mask, the lowest failing lane with its address, and
what TRAP, BRK and the halting codes add. -/
structure Trap where
  code : Nat
  lanes : Mask
  lane : Nat
  addr : Option Nat
  arg : Nat
  sub : Nat
  aux : Nat
  deriving DecidableEq, Repr

/-- A fault of the whole active mask, reported before any lane (R385). -/
def Trap.warp (code : Nat) (m : Mask) : Trap :=
  { code := code, lanes := m, lane := (lowest m).getD 0, addr := none, arg := 0, sub := 0, aux := 0 }

/-- The same, with the address that TADDR holds. -/
def Trap.at (code : Nat) (m : Mask) (addr : Nat) : Trap := { Trap.warp code m with addr := some addr }

/-- Where a fault, a park or a halt finds a warp: the address and word of its instruction or header, the active
mask, whether clause selection raised it, the rest of the frontier, and the position inside the clause. -/
structure Pos where
  pc : Nat
  word : DWord
  mask : Mask
  hdr : Bool
  frontier : List FEntry
  cursor : Option Cursor
  deriving DecidableEq, Repr

/-- The lanes that go on after the instruction of a position (TLIVE). -/
def Pos.live (p : Pos) : Mask := if p.hdr then 0 else (p.cursor.map Cursor.live).getD 0

/-- The trap record of a fault (R370). -/
def recordOf (x : Warp) (widx : Nat) (p : Pos) (t : Trap) : TrapRec :=
  { TrapRec.zero with
    code := t.code, arg := t.arg, sub := t.sub, addrv := t.addr.isSome, nest := x.inHandler, hdr := p.hdr, lane := t.lane,
    widx := widx, pcore := x.core, pc := p.pc, insn := p.word, mask := p.mask, resume := t.lanes,
    addr := t.addr.getD 0, aux := t.aux, live := p.live }

/-- The counters of a warp by name (Table 11-8). -/
def Counters.get (c : Counters) : Ctr → Nat
  | .ld => c.ld
  | .st => c.st
  | .cb => c.cb
  | .tl => c.tl
  | .sk => c.sk

/-- A counter raised or lowered. -/
def Counters.add (c : Counters) (k : Ctr) (up : Bool) : Counters :=
  let f := fun n => if up then n + 1 else n - 1
  match k with
  | .ld => { c with ld := f c.ld }
  | .st => { c with st := f c.st }
  | .cb => { c with cb := f c.cb }
  | .tl => { c with tl := f c.tl }
  | .sk => { c with sk := f c.sk }

/-- Counters lowered, one for each name in a list. -/
def Counters.lower (c : Counters) (l : List Ctr) : Counters := l.foldl (fun c k => c.add k false) c

/-- The counters that an unretired instruction still holds up: those of its kind, but for `ld` once its load has bound
(R73). -/
def Warp.openCounts (x : Warp) (counts : Instr → List Ctr) (e : WEntry) : List Ctr :=
  if x.loads.any fun l => l.id == e.seq && l.fallen then (counts e.instr).filter fun k => k != .ld else counts e.instr

/-- A warp whose unretired instructions are discarded (R368, R96): its window, what those have computed, and their
counts; `counts` names the counters of an instruction. -/
def Warp.discard (x : Warp) (counts : Instr → List Ctr) : Warp :=
  { x with
    window := []
    stage := []
    loads := x.loads.filter LoadOp.retired
    skOps := x.skOps.filter SkOp.retired
    stores := x.stores.filter fun t => x.window.all fun e => t.id != e.seq
    ctr := x.window.foldl (fun c e => c.lower (x.openCounts counts e)) x.ctr }

namespace State

/-- The handler address of a team's context, as read at its placement (R369). -/
def thndOf (s : State) (t : Nat) : Nat := ((s.team? t).map Team.thnd).getD 0

/-- Whether a warp waits for a handler bank. -/
def waitsBank (x : Warp) : Bool := x.status == .handler && (x.handler.map fun h => h.bank.isNone).getD false

/-- A handler bank for the warp of a core that has waited longest (R82, R371 steps 2 to 4), of two that trapped in one
cycle the one with the lower key (log 85): the trap record is latched and the handler starts at THND in the lanes of
TMASK, its 32 registers zero and uniform. The PRIO of its header is read before the warp selects it (R53). -/
def giveBank (s : State) (c : Nat) : State :=
  let waiting := (s.warpsOn c).filter fun e => waitsBank e.2
  let since := fun e : WarpId × Warp => (e.2.handler.map Handler.since).getD 0
  let first := waiting.foldl (fun (b : Option (WarpId × Warp)) e =>
    match b with
    | none => some e
    | some d => if since e < since d then some e else some d) none
  match first, (s.core c).banks.findIdx? Option.isNone with
  | some (w, x), some k =>
    match x.handler with
    | none => s
    | some h =>
      let s := s.modCore c fun y => { y with banks := y.banks.set k (some w) }
      let entry : FEntry :=
        { addr := s.thndOf w.team, mask := h.trec.mask, prio := 0, passes := 0, rejoin := false, known := false }
      let held := x.lastRetire + (s.clock - h.since)
      if h.started then s.setWarp w { x with handler := some { h with bank := some k }, lastRetire := held }
      else
        s.setWarp w { x with
          hregs := []
          handler := some { h with bank := some k, started := true, trec := { h.trec with clk := s.clock } }
          lastRetire := held
          fr := if h.trec.mask = 0 then [] else [entry]
          cursor := none
          port := none }
  | _, _ => s

/-- Whether a load, a sketch operation or an operation on a tile of a warp has still to give its registers their values. -/
def unbound (x : Warp) (id : Nat) : Bool :=
  (x.loads.any fun l => l.id == id) || (x.skOps.any fun o => o.id == id) || x.tileOps.any fun o => o.id == id

/-- The banks that a warp has given back return to the core's free banks once none of their registers is pending (R82,
R373). -/
def freeBank (s : State) (w : WarpId) : State :=
  match s.warp? w with
  | none => s
  | some x =>
    let (open', free) := x.drains.partition fun d => d.2.any (unbound x)
    if free.isEmpty then s
    else
      (s.setWarp w { x with drains := open' }).modCore x.core fun y =>
        { y with banks := y.banks.mapIdx fun k b => if free.any fun d => d.1 == k then none else b }

/-- Whether the port of a warp waits for window entries (R67). -/
def windowFull (s : State) (x : Warp) : Bool :=
  x.window.length ≥ Config.warpWindow || ((s.warpsOn x.core).map fun e => e.2.window.length).foldl (· + ·) 0 ≥ Config.coreWindow

/-- A warp that stops dispatching in a halt: the port goes, unless it waits for window entries, when the rest of its clause
counts as dispatched (R375). -/
def haltPort (s : State) (x : Warp) : Option Nat := if s.windowFull x then x.port else none

/-- A warp begins the halt of its team (R374, R375): it stops dispatching at once, its record carries the cause in
TAUX, and the context is pre-empted (R376); `stop` says whether the record names the point where the warp stops. The Crier
carries the halt on (row TEAM_HALT). -/
def haltTeam (s : State) (w : WarpId) (r : TrapRec) (stop : Bool := false) : State :=
  let s := s.modWarp w fun x => { x with
    halt := some { r with code := 0x42, halt := true, aux := r.code }, haltStop := stop, port := s.haltPort x }
  let s := s.modTeam w.team fun t => { t with halted := some (t.halted.getD r.code), forced := true }
  s.preempt (s.ctxOf w.team)

/-- TAKING AN EXCEPTION. The fault of a warp at a position (R367, R368, R371, R374): everything younger is discarded;
in handler state, or with no handler, the team halts, and the warp stands at the lanes still to act, after an instruction
that has completed in every lane, or before the clause whose selection failed; otherwise the frontier and the position are
frozen, the record is formed, and the warp waits for a bank, which it receives at once when one is free. -/
def takeTrap (s : State) (w : WarpId) (counts : Instr → List Ctr) (p : Pos) (t : Trap) : State :=
  match s.warp? w with
  | none => s
  | some x =>
    let r := recordOf x w.widx p t
    let y := { x.discard counts with refused := [], lostWords := [], fr := p.frontier, cursor := p.cursor, port := none }
    if x.inHandler || s.thndOf w.team = 0 then
      let cur := p.cursor.map fun c =>
        if t.lanes = 0 then { c with pc := p.pc + 8, rmask := c.live, words := c.words.drop 1 } else { c with rmask := t.lanes }
      (s.setWarp w { y with cursor := cur, fr := if p.hdr then x.fr else p.frontier }).haltTeam w r
    else
      let h : Handler := { bank := none, since := s.clock, started := false, trec := r, frozen := p.frontier, fcur := p.cursor }
      (s.setWarp w { y with status := .handler, handler := some h, fr := [], cursor := none }).giveBank x.core

/-- An entry put in a frontier, merged with one at the same address (R55). -/
def mergeEntry (fr : List FEntry) (e : FEntry) : List FEntry :=
  if e.mask = 0 then fr
  else if fr.any fun d => d.addr == e.addr then
    fr.map fun d => if d.addr = e.addr then { d with mask := d.mask ||| e.mask, passes := max d.passes e.passes } else d
  else fr ++ [e]

/-- RETURNING FROM AN EXCEPTION (R255, R373): handler state ends, the frozen frontier returns, and the interrupted
clause goes on at the trapped instruction in the lanes of TRESUME, or after it under `.skip`; a fault at clause
selection returns its lanes to the frontier at the header, or drops them. -/
def returnTrap (s : State) (w : WarpId) (skip : Bool) : State :=
  match s.warp? w with
  | none => s
  | some x =>
    match x.handler with
    | none => s
    | some h =>
      let mine := x.pend.filter fun n => n.1 ≥ 960
      let base := { x with
        status := .running, handler := none, hregs := [], port := none
        pend := x.pend.filter fun n => n.1 < 960
        drains := x.drains ++ (h.bank.map fun k => (k, mine.map fun (n : Nat × Nat) => n.2)).toList }
      let y :=
        if h.trec.hdr then
          let e : FEntry := { addr := h.trec.pc, mask := h.trec.mask, prio := field h.trec.insn.toNat 48 8, passes := 0,
                              rejoin := h.trec.insn.getLsbD 56, known := false }
          { base with fr := if skip then h.frozen else mergeEntry h.frozen e, cursor := none }
        else
          let cur := h.fcur.map fun c =>
            if skip then { c with pc := h.trec.pc + 8, live := h.trec.live, rmask := h.trec.live, words := c.words.drop 1 }
            else { c with pc := h.trec.pc, live := h.trec.live, rmask := h.trec.resume }
          { base with fr := h.frozen, cursor := cur }
      (s.setWarp w y).freeBank w

/-- A warp parks (R404): its watchdog pauses, so that `lastRetire` holds the cycles counted so far (R378); the younger instructions are discarded, the resume mask is the lanes not completed, and one
request for each distinct page not already requested goes to the event ring. `pages` gives for each page its
lowest lane's address and whether the access writes. -/
def parkWarp (s : State) (w : WarpId) (counts : Instr → List Ctr) (p : Pos) (resume : Mask)
    (pages : List (Nat × Nat × Bool)) : State :=
  match s.warp? w with
  | none => s
  | some x =>
    let y := { x.discard counts with
      status := if x.inHandler then .handler else .parked
      park := some { pages := pages.map (·.1), resume := resume, fetch := p.hdr }
      lastRetire := s.clock - x.lastRetire
      refused := []
      lostWords := []
      fr := p.frontier
      cursor := p.cursor.map fun c => { c with rmask := resume }
      port := none }
    let c := s.ctxOf w.team
    pages.foldl (fun s q =>
      if (s.ctx c).requests.contains q.1 then s
      else
        let s := s.modCtx c fun z => { z with requests := z.requests ++ [q.1] }
        s.postEvent c { recordOf x w.widx p { Trap.at 0x10 resume q.2.1 with sub := if q.2.2 then 0x21 else 0x20 } with
          owner := some w }) (s.setWarp w y)

end State

end Sys2Proof.Machine
end

