-- ==== Sys2Proof/Machine/Flags.lean ====
section
/-! DEFINITION. The shape tags of results (R76 to R78, Table 4-2), written under all 32 lanes; a partial mask makes
them general where the result is written (`Warp.writeReg`). No instruction has a condition flag (R237). -/

namespace Sys2Proof.Machine

/-- The row "every other operation" of Table 4-2: uniform when every register source is. -/
def tagAll (l : List VReg) : Tag := if l.all (fun r => r.tag == .uniform) then .uniform else .general

/-- An affine rule that yields stride 0 gives a uniform result (R76). -/
def affineTag (stride : Word) : Tag := if stride = 0 then .uniform else .affine

/-- The stride a source counts with: a uniform one counts as stride 0. -/
def tagStride (r : VReg) : Word := if r.tag = .uniform then 0 else r.stride

/-- `IADD` and `ISUB` that wrap. -/
def tagSum (sub : Bool) (a b : VReg) : Tag :=
  if a.tag = .general ∨ b.tag = .general then .general
  else if a.tag = .uniform ∧ b.tag = .uniform then .uniform
  else affineTag (if sub then tagStride a - tagStride b else tagStride a + tagStride b)

/-- `IMUL`: one affine and one uniform source. -/
def tagMul (a b : VReg) : Tag :=
  match a.tag, b.tag with
  | .uniform, .uniform => .uniform
  | .affine, .uniform => affineTag (a.stride * b.at 0)
  | .uniform, .affine => affineTag (b.stride * a.at 0)
  | _, _ => .general

/-- `SHL`: an affine source shifted by a uniform amount from 0 to 31. -/
def tagShl (a b : VReg) : Tag :=
  match a.tag, b.tag with
  | .uniform, .uniform => .uniform
  | .affine, .uniform => if (b.at 0).toNat ≤ 31 then affineTag (a.stride <<< (b.at 0).toNat) else .general
  | _, _ => .general

/-- `IADD` and `ISUB` under each of their modifiers. -/
def tagIadd (k : SatKind) (sub : Bool) (a b : VReg) : Tag := if k = .wrap then tagSum sub a b else tagAll [a, b]

end Sys2Proof.Machine
end

