-- ==== Sys2Proof/Machine/Xts.lean ====
section
/-! DEFINITION. The cipher of the HBM (R19, R128): AES-XTS-256 over one line as one data unit. The spec names the cipher and gives
its data unit, tweak and keys; the cipher itself is that of FIPS 197 and IEEE 1619 (log 86). -/

namespace Sys2Proof.Machine

/-! ### AES-256 on blocks of 16 bytes, each a number below 256 -/

/-- 32 bytes of a substitution table at a time, the first byte lowest. -/
def sboxRows : List Nat :=
  [0xc072a49cafa2d4adf04759fa7dc982ca76abd7fe2b670130c56f6bf27b777c63,
   0x75b227ebe28012079a059618c323c7041531d871f1e5a534ccf73f362693fdb7,
   0xcf584c4a39becb6a5bb1fc20ed00d153842fe329b3d63b52a05a6e1b1a2c8309,
   0xd2f3ff1021dab6bcf5389d928f40a351a89f3c507f02f94585334d43fbaaefd0,
   0xdb0b5ede14b8ee4688902a22dc4f816073195d643d7ea7c41744975fec130ccd,
   0x08ae7a65eaf4566ca94ed58d6d37c8e779e4959162acd3c25c2406490a3a32e0,
   0x9e1dc186b95735610ef6034866b53e708a8bbd4b1f74dde8c6b4a61c2e2578ba,
   0x16bb54b00f2d99416842e6bf0d89a18cdf2855cee9871e9b948ed9691198f8e1]
def invRows : List Nat :=
  [0xcbe9dec444438e3487ff2f9b8239e37cfbd7f3819ea340bf38a53630d56a0952,
   0x25d18b6d49a25b76b224d92866a12e084ec3fa420b954cee3d23c2a632947b54,
   0x849d8da75746155edab9edfd5048706c92b6655dcc5ca4d41698688664f6f872,
   0x6b8a130103bdafc1020f3fca8f1e2cd00645b3b80558e4f70ad3bc8c00abd890,
   0x6edf751ce837f9e28535ade72274ac9673e6b4f0cecff297eadc674f4111913a,
   0xf45acd78fec0db9a2079d2c64b3e56fc1bbe18aa0e62b76f89c5291d711af147,
   0xef9cc9939f7ae52d0d4ab519a97f51605fec8027591012b131c7078833a8dd1f,
   0x7d0c2155631469e126d677ba7e042b17619953833cbbebc8b0f52aae4d3be0a0]

/-- A byte substituted. -/
def subByte (rows : List Nat) (x : Nat) : Nat := field (rows.getD (x / 32) 0) (8 * (x % 32)) 8

/-- A byte times x, and the product of two bytes, in the field of AES. -/
def xtime (x : Nat) : Nat := if x < 128 then 2 * x else (2 * x) ^^^ 0x11B
def gmul (a b : Nat) : Nat :=
  ((List.range 8).foldl (fun (r : Nat × Nat) k => (if field b k 1 = 1 then r.1 ^^^ r.2 else r.1, xtime r.2)) (0, a)).1

/-- Two lists of bytes XORed. -/
def xorBytes (a b : List Nat) : List Nat := List.zipWith (· ^^^ ·) a b

/-- The words of the expanded key, four bytes each. -/
def expandKey (key : List Nat) : List (List Nat) :=
  let first := (List.range 8).map fun k => (key.drop (4 * k)).take 4
  (List.range 52).foldl (fun (w : List (List Nat)) k =>
    let i := k + 8
    let t := w.getD (i - 1) []
    let t :=
      if i % 8 = 0 then xorBytes ((t.drop 1 ++ t.take 1).map (subByte sboxRows)) [2 ^ (i / 8 - 1), 0, 0, 0]
      else if i % 8 = 4 then t.map (subByte sboxRows)
      else t
    w ++ [xorBytes (w.getD (i - 8) []) t]) first

/-- The key of a round. -/
def roundKey (w : List (List Nat)) (r : Nat) : List Nat := ((w.drop (4 * r)).take 4).flatten

/-- The rows of a block rotated to the left, or back. -/
def shiftRows (b : List Nat) : List Nat := (List.range 16).map fun i => b.getD (i % 4 + 4 * ((i / 4 + i % 4) % 4)) 0
def unshiftRows (b : List Nat) : List Nat := (List.range 16).map fun i => b.getD (i % 4 + 4 * ((i / 4 + 4 - i % 4) % 4)) 0

/-- The columns of a block multiplied by a fixed polynomial, given by its first row. -/
def mixWith (m : List Nat) (b : List Nat) : List Nat :=
  (List.range 16).map fun i =>
    (List.range 4).foldl (fun r k => r ^^^ gmul (b.getD (i / 4 * 4 + k) 0) (m.getD ((k + 4 - i % 4) % 4) 0)) 0

/-- A block encrypted. -/
def aesEncrypt (w : List (List Nat)) (b : List Nat) : List Nat :=
  let b := (List.range 13).foldl (fun b r =>
    xorBytes (mixWith [2, 3, 1, 1] (shiftRows (b.map (subByte sboxRows)))) (roundKey w (r + 1))) (xorBytes b (roundKey w 0))
  xorBytes (shiftRows (b.map (subByte sboxRows))) (roundKey w 14)

/-- A block decrypted. -/
def aesDecrypt (w : List (List Nat)) (b : List Nat) : List Nat :=
  let b := (List.range 13).foldl (fun b r =>
    mixWith [14, 11, 13, 9] (xorBytes ((unshiftRows b).map (subByte invRows)) (roundKey w (13 - r))))
    (xorBytes b (roundKey w 14))
  xorBytes ((unshiftRows b).map (subByte invRows)) (roundKey w 0)

/-! ### XTS -/

/-- A number's n bytes, the lowest first, and the number of such bytes. -/
def natBytes (n x : Nat) : List Nat := (List.range n).map fun k => field x (8 * k) 8
def bytesToNat (l : List Nat) : Nat := l.foldr (fun b n => b + 256 * n) 0

/-- The tweak of the next block. -/
def nextTweak (t : Nat) : Nat := if t < 2 ^ 127 then 2 * t else (2 * t - 2 ^ 128) ^^^ 0x87

/-- A line encrypted, or decrypted, under a key of 64 bytes: bytes 0 to 31 are the data key, 32 to 63 the tweak key (R359);
the tweak is the number of the line (R128). -/
def xtsLine (enc : Bool) (key line : Nat) (bs : List Byte) : List Byte :=
  let w := expandKey (natBytes 32 key)
  let t := bytesToNat (aesEncrypt (expandKey (natBytes 32 (key / 2 ^ 256))) (natBytes 16 line))
  ((List.range 8).foldl (fun (a : List Byte × Nat) k =>
    let tw := natBytes 16 a.2
    let b := xorBytes (((bs.drop (16 * k)).take 16).map BitVec.toNat) tw
    (a.1 ++ (xorBytes (if enc then aesEncrypt w b else aesDecrypt w b) tw).map (BitVec.ofNat 8), nextTweak a.2)) ([], t)).1

end Sys2Proof.Machine
end

