-- ==== Sys2Proof/Machine/Mem.lean ====
section
/-! DEFINITION. Global memory: homes (R124), the HBM and its keys (R128), L2 slices (R120 to R122), L1 data caches
(R120, R158, R159) and the signatures that tell a core what to drop (R163, R166, R167). -/

namespace Sys2Proof.Machine

/-! ### HBM under keys -/

/-- Whether a physical address names a stack (R127). -/
def hasHome (pa : Nat) : Bool := pa / 2 ^ 36 < Config.stackCount

/-- The contents of a key table entry (R128, R428: zero at reset). -/
def Mem.keyOf (m : Mem) (k : Nat) : Nat := amGet 0 m.keys k

/-- A byte of a line of HBM as decrypted under a key (R128). The model holds the plaintext of a line with the key it was
written under; under another key the line decrypts to other bytes. -/
def Mem.hbmGet (m : Mem) (line key off : Nat) : Byte :=
  let st := amGet 0 m.stamps line
  if st = m.keyOf key then Memory.get m.hbm (line * 128 + off)
  else (xtsLine false (m.keyOf key) line (xtsLine true st line (Memory.read m.hbm (line * 128) 128))).getD off 0

/-- Bytes of a line written under a key; the rest of the line is decrypted and encrypted again under it (R128). -/
def Mem.hbmPatch (m : Mem) (line key : Nat) (patch : List (Nat × Byte)) : Mem :=
  let st := amGet 0 m.stamps line
  if patch.isEmpty then m
  else if st = m.keyOf key then { m with hbm := Memory.patch m.hbm (line * 128) patch }
  else
    let old := (List.range 128).map fun o => (o, m.hbmGet line key o)
    { m with
      hbm := Memory.patch (Memory.patch m.hbm (line * 128) old) (line * 128) patch
      stamps := amPut 0 m.stamps line (m.keyOf key) }

/-! ### Bytes of a cached line -/

/-- Whether the 4-byte word of an offset is valid (R120). -/
def wordValid (bytes : AMap Byte) (off : Nat) : Bool := (amFind bytes (off / 4 * 4)).isSome

/-- The offsets of a sector whose words are invalid. -/
def invalidIn (bytes : AMap Byte) (sector : Nat) : List Nat :=
  ((List.range 32).map fun k => 32 * sector + k).filter fun o => !wordValid bytes o

/-- The sectors a set of offsets touches. -/
def sectorsOf (offs : List Nat) : List Nat := (List.range 4).filter fun k => offs.any fun o => o / 32 == k

/-- The offsets of a patch. -/
def offsOf (patch : List (Nat × Byte)) : List Nat := patch.map (·.1)

/-- Sectors that a store of part of an invalid word fills first (R120). -/
def partialSectors (bytes : AMap Byte) (patch : List (Nat × Byte)) : List Nat :=
  let offs := offsOf patch
  sectorsOf (offs.filter fun o =>
    !wordValid bytes o && !((List.range 4).all fun k => offs.contains (o / 4 * 4 + k)))

/-- Valid bytes after bytes were put in. -/
def putBytes (bytes : AMap Byte) : List (Nat × Byte) → AMap Byte
  | [] => bytes
  | (o, b) :: l => putBytes (amSet bytes o b) l

/-- A set of offsets with more added. -/
def addOffs (l : List Nat) (more : List Nat) : List Nat := l ++ more.filter fun o => !l.contains o

/-! ### L2 -/

/-- `l2_home` (R124). -/
def l2HomeWith (l2dom : DWord) (hash : List DWord) (pa : Nat) : Nat :=
  let d := field l2dom.toNat (3 * field pa 36 4) 3
  let h := (hash.getD d 0).toNat
  let n := field h 56 3
  let x := field pa 7 33 &&& field h 0 33
  let idx := if n = 0 then 0 else (List.range (33 / n + 1)).foldl (fun acc i => acc ^^^ field x (n * i) n) 0
  field h 48 7 + idx

/-- The home slice under the mapping in force. -/
def Mem.l2Home (m : Mem) (pa : Nat) : Nat := l2HomeWith m.l2dom m.l2hash pa

def Mem.l2Find (m : Mem) (slice line key : Nat) : Option L2Line :=
  m.l2.find? fun e => e.slice == slice && e.line == line && e.key == key

def Mem.l2Drop (m : Mem) (slice line key : Nat) : Mem :=
  { m with l2 := m.l2.filter fun e => !(e.slice == slice && e.line == line && e.key == key) }

def Mem.l2Put (m : Mem) (e : L2Line) : Mem :=
  let m := m.l2Drop e.slice e.line e.key
  { m with l2 := e :: m.l2 }

/-- The dirty bytes of a line. -/
def L2Line.dirtyBytes (e : L2Line) : List (Nat × Byte) := e.bytes.filter fun b => e.dirty.contains b.1

/-- A line written to memory. -/
def Mem.l2Write (m : Mem) (e : L2Line) : Mem := m.hbmPatch e.line e.key e.dirtyBytes

/-- A line written to memory and kept valid and clean. -/
def Mem.l2Clean (m : Mem) (e : L2Line) : Mem := (m.l2Write e).l2Put { e with dirty := [] }

/-- The words of a sector that are invalid, filled from memory (R120). -/
def Mem.l2FillSector (m : Mem) (e : L2Line) (sector : Nat) : L2Line :=
  { e with bytes := putBytes e.bytes ((invalidIn e.bytes sector).map fun o => (o, m.hbmGet e.line e.key o)) }

/-- Fields of a replacement-class register (Table 6-5). -/
def rclsWays (r : Nat) : Nat := field r 0 16
def rclsAge (r : Nat) : Nat := field r 16 2
def rclsPol (r : Nat) : Nat := field r 18 2
/-- A class register at reset (Table 6-5). -/
def rclsReset (n : Nat) : Nat := if n = 15 then 0x0000000F else 0x0002FFF0

/-- The set of a line (log 11). -/
def l2Set (line : Nat) : Nat := line % Config.l2Sets

/-- The way an insertion of a class takes (R122), with the ages raised on the way and a dirty victim written to
memory; none when no way is a candidate. -/
def Mem.l2Victim (m : Mem) (slice line cls r : Nat) : Option (Nat × Mem) :=
  let inSet := m.l2.filter fun e => e.slice == slice && l2Set e.line == l2Set line
  let at' := fun w => inSet.find? fun e => e.way == w
  let cand := (List.range Config.l2Ways).filter fun w => field (rclsWays r) w 1 == 1 &&
    (cls == 15 || (at' w).all fun e => e.cls != 15)
  match cand.find? (fun w => (at' w).isNone) with
  | some w => some (w, m)
  | none =>
    let ages := cand.map fun w => ((at' w).map L2Line.age).getD 0
    let top := ages.foldl max 0
    match cand.find? (fun w => ((at' w).map L2Line.age).getD 0 == top) with
    | none => none
    | some w =>
      let m := { m with l2 := m.l2.map fun e =>
        if e.slice == slice && l2Set e.line == l2Set line && cand.contains e.way then { e with age := e.age + (3 - top) }
        else e }
      match at' w with
      | none => some (w, m)
      | some v => some (w, (m.l2Write v).l2Drop v.slice v.line v.key)

/-- The line of an access: hit with its age set to 0, or newly inserted; none where it does not allocate. -/
def Mem.l2Open (m : Mem) (slice line key cls r : Nat) : Option L2Line × Mem :=
  match m.l2Find slice line key with
  | some e => let e := { e with age := 0 }; (some e, m.l2Put e)
  | none =>
    match m.l2Victim slice line cls r with
    | none => (none, m)
    | some (w, m) =>
      let e : L2Line := { slice := slice, line := line, key := key, cls := cls, way := w, age := rclsAge r, bytes := [],
                          dirty := [] }
      (some e, m.l2Put e)

namespace State

/-- The class register that a slice uses: of the partition that owns the hub of the slice (R121); a disabled partition owns no
hub (R358). -/
def rclsOf (s : State) (slice cls : Nat) : Nat :=
  match s.parts.find? (fun p => p.2.en && field p.2.hubMask (slice / 8) 1 == 1) with
  | some p => amGet (rclsReset cls) p.2.rcls cls
  | none => rclsReset cls

/-- The bytes at offsets of a line as its home holds them, the stranded copies of R125 apart. -/
def sliceRead (s : State) (line key cls : Nat) (offs : List Nat) : List Byte × State :=
  let slice := s.mem.l2Home (line * 128)
  match s.mem.l2Open slice line key cls (s.rclsOf slice cls) with
  | (none, m) => (offs.map fun o => m.hbmGet line key o, s.setMem m)
  | (some e, m) =>
    let need := sectorsOf (offs.filter fun o => !wordValid e.bytes o)
    let e := need.foldl (fun e k => m.l2FillSector e k) e
    (offs.map fun o => amGet 0 e.bytes o, s.setMem (m.l2Put e))

/-- The stranded copies of a line (R125): dirty in a slice that is no longer its home. -/
def strandsOf (s : State) (line key : Nat) : List (Strand × L2Line) :=
  let home := s.mem.l2Home (line * 128)
  (s.mem.strands.filter fun t => t.line == line && t.key == key && t.slice != home).filterMap fun t =>
    ((s.mem.l2Find t.slice line key).bind fun e => if e.dirty.isEmpty then none else some e).map fun e => (t, e)

/-- The values that a byte of a line may read (R125): the present one, and where a copy of the line is stranded what memory
held at the switch, what has been written since, and the stranded value. -/
def strandVals (l : List (Strand × L2Line)) (off : Nat) (now : Byte) : List Byte :=
  now :: l.flatMap fun p =>
    p.1.base.getD off 0 :: (amFind p.2.bytes off).toList ++ (p.1.hist.filter fun h => h.1 == off).map (·.2)

/-- What is written to a stranded line under the new mapping remembered (R125). -/
def strandNote (s : State) (line key : Nat) (patch : List (Nat × Byte)) : State :=
  if (s.strandsOf line key).isEmpty then s
  else s.setMem { s.mem with strands := s.mem.strands.map fun (t : Strand) =>
    if t.line = line && t.key = key then { t with hist := t.hist ++ patch } else t }

/-- Bytes at offsets of a local line, read at the home (R158). A byte of a stranded line reads one of several values (R125,
log 17). -/
def lineRead (s : State) (line key cls : Nat) (offs : List Nat) : List Byte × State :=
  if hasHome (line * 128) then
    let (bs, s') := s.sliceRead line key cls offs
    match s.strandsOf line key with
    | [] => (bs, s')
    | l =>
      (List.zipWith (fun o b =>
        let vs := strandVals l o b
        vs.getD (Config.strandedPick ((s.stepNo * 2 ^ 64 + line) * 128 + o) % vs.length) b) offs bs, s')
  else (offs.map fun o => Config.homelessByte (line * 128 + o), s)

/-- Bytes of a local line written at the home (R121, R158). The reserved WPOL 11 acts as write-back (log 88). -/
def lineWrite (s : State) (line key cls : Nat) (patch : List (Nat × Byte)) : State :=
  if patch.isEmpty || !hasHome (line * 128) then s
  else
    let s := s.strandNote line key patch
    let slice := s.mem.l2Home (line * 128)
    let r := s.rclsOf slice cls
    let pol := rclsPol r
    if pol == 2 && (s.mem.l2Find slice line key).isNone then s.setMem (s.mem.hbmPatch line key patch)
    else
      match s.mem.l2Open slice line key cls r with
      | (none, m) => s.setMem (m.hbmPatch line key patch)
      | (some e, m) =>
        let e := (partialSectors e.bytes patch).foldl (fun e k => m.l2FillSector e k) e
        let e := { e with bytes := putBytes e.bytes patch }
        if pol == 1 then s.setMem ((m.hbmPatch line key patch).l2Put e)
        else s.setMem (m.l2Put { e with dirty := addOffs e.dirty (offsOf patch) })

/-- The cut of a byte range into lines: line, first offset, bytes. -/
def lineCuts : Nat → Nat → Nat → List (Nat × Nat × Nat)
  | 0, _, _ => []
  | fuel + 1, pa, n =>
    if n = 0 then []
    else
      let k := min n (128 - pa % 128)
      (pa / 128, pa % 128, k) :: lineCuts fuel (pa + k) (n - k)

/-- `n` bytes at a local physical address, read at their homes. -/
def homeRead (s : State) (pa key cls n : Nat) : List Byte × State :=
  (lineCuts (n / 128 + 2) pa n).foldl (fun (acc : List Byte × State) c =>
    let (bs, s) := acc.2.lineRead c.1 key cls ((List.range c.2.2).map (c.2.1 + ·))
    (acc.1 ++ bs, s)) ([], s)

/-- (offset, byte) pairs from a local physical address, written at their homes. -/
def homePatch (s : State) (pa key cls : Nat) (patch : List (Nat × Byte)) : State :=
  let all := patch.map fun b => (pa + b.1, b.2)
  ((all.map fun b => b.1 / 128).dedup).foldl (fun s line =>
    s.lineWrite line key cls ((all.filter fun b => b.1 / 128 == line).map fun b => (b.1 % 128, b.2))) s

/-- Bytes from a local physical address, written at their homes. -/
def homeWrite (s : State) (pa key cls : Nat) (bs : List Byte) : State :=
  s.homePatch pa key cls (bs.mapIdx fun k b => (k, b))

/-- A little-endian number read at the home. -/
def homeNat (s : State) (pa key cls n : Nat) : Nat × State :=
  let (bs, s) := s.homeRead pa key cls n
  (leNat bs, s)

/-- Accesses the device makes by physical address: key index 0 (R428), class 0 (log 18). -/
def devRead (s : State) (pa n : Nat) : List Byte × State := s.homeRead pa 0 0 n
def devWrite (s : State) (pa : Nat) (bs : List Byte) : State := s.homeWrite pa 0 0 bs

end State

/-! ### Signatures -/

/-- The name of a line (R166). -/
def lineName (fid pa : Nat) : Nat := fid * 2 ^ 33 + pa / 128

/-- `sig_bits` of a line (R166). -/
def sigOf (x : Nat) : Sig :=
  (List.range 4).foldl (fun g i => g ||| ((1 : Sig) <<< (qh64 x (0x6B2ED4A195C30F78 ^^^ i) / 2 ^ 54))) 0

/-- Whether a line matches a signature: all of its bits are set. -/
def sigHas (g : Sig) (x : Nat) : Bool := sigOf x &&& g == sigOf x

/-! ### L1 -/

/-- Whether the word of an offset holds a dirty byte. -/
def L1Line.wordDirty (e : L1Line) (off : Nat) : Bool := (List.range 4).any fun k => e.dirty.contains (off / 4 * 4 + k)

/-- A line without its clean words. -/
def L1Line.dropClean (e : L1Line) : L1Line := { e with bytes := e.bytes.filter fun b => e.wordDirty b.1 }

/-- The dirty bytes of the sectors that meet a condition. -/
def L1Line.dirtyIn (e : L1Line) (f : Nat → Bool) : List (Nat × Byte) :=
  e.bytes.filter fun b => e.dirty.contains b.1 && f (b.1 / 32)

namespace State

def l1Find (s : State) (c line key : Nat) : Option L1Line := (s.core c).l1.find? fun e => e.line == line && e.key == key

def l1Drop (s : State) (c line key : Nat) : State :=
  s.modCore c fun x => { x with l1 := x.l1.filter fun e => !(e.line == line && e.key == key) }

/-- Whether a write to a page of a snapshot must wait: the first one to a leaf at TWIN 10 for its twin or for the Carter
(R364, R365), and any to the original of a leaf marked for early drain for that drain, since the page sent holds no write
made after the cut (R363, log 70). -/
def writeHeld (s : State) (pa : Nat) : Bool :=
  s.parts.any fun p => p.2.snap.state == 2 && p.2.snap.pages.any fun g =>
    !g.drained && (g.early || g.twin.isNone) && g.frame == pa / 2 ^ 19

/-- Whether an access under a key index at its home waits for the end of a load of that key (R359); one that the slice could
answer without memory waits too (log 104). -/
def keyWaits (s : State) (key : Nat) : Bool := s.host.keyPend.any fun k => k.1 == key

/-- Whether a write that performs at the home must wait (R359, R364). -/
def homeHeld (s : State) (pa key : Nat) : Bool := s.writeHeld pa || s.keyWaits key

/-- A line put in its place; a line with no valid byte is not kept. -/
def l1Place (s : State) (c : Nat) (e : L1Line) : State :=
  let s := s.l1Drop c e.line e.key
  if e.bytes.isEmpty then s else s.modCore c fun x => { x with l1 := e :: x.l1 }

/-- The dirty sectors of a line that meet a condition written back to the home and left clean (R120, R158). -/
def l1Writeback (s : State) (c : Nat) (e : L1Line) (f : Nat → Bool) : State :=
  let s := s.lineWrite (e.line % 2 ^ 33) e.key e.cls (e.dirtyIn f)
  s.l1Place c { e with dirty := e.dirty.filter fun o => !f (o / 32), since := e.since.filter fun t => !f t.1 }

/-- Lines of an L1 of 128 KiB (R12). -/
def l1Lines : Nat := 1024

/-- Room in an L1 for a line: it has a place already, or there is one to spare, or another line is evicted, its dirty bytes
written back (R120, log 87). None while every line is held by a snapshot (R364). -/
def l1Room (s : State) (c line key : Nat) : Option State :=
  let l := (s.core c).l1
  if l.length < l1Lines || (s.l1Find c line key).isSome then some s
  else
    let free := l.filter fun e => e.dirty.isEmpty || !s.writeHeld (e.line % 2 ^ 33 * 128)
    match free[Config.l1Victim s.stepNo % free.length]? with
    | none => none
    | some e => some ((if e.dirty.isEmpty then s else s.l1Writeback c e fun _ => true).l1Drop c e.line e.key)

/-- A line put in its place, with room made for it; without room a clean line is not kept. -/
def l1Put (s : State) (c : Nat) (e : L1Line) : State :=
  match s.l1Room c e.line e.key with
  | some s => s.l1Place c e
  | none => if e.dirty.isEmpty then s else s.l1Place c e

/-- Every dirty sector of an L1 written back (step 4 of R162). -/
def l1Flush (s : State) (c : Nat) : State :=
  (s.core c).l1.foldl (fun s e => if e.dirty.isEmpty then s else s.l1Writeback c e fun _ => true) s

/-- Reads of other packages on their way for a core, whose answers must no longer be placed in its L1. -/
def noFillIn (s : State) (p : Nat → Bool) : State :=
  s.setFab { s.fab with reqs := s.fab.reqs.map fun (r : Req) =>
    match r.owner with
    | .load _ _ => { r with serial := if p r.core && r.kind == .readReq then 1 else r.serial }
    | .prefetch d => { r with serial := if p d then 1 else r.serial }
    | _ => r }
/-- The same for the answers of one core. -/
def noFill (s : State) (c : Nat) : State := s.noFillIn fun d => d == c
/-- The same for the answers that a core's constant cache and clause cache wait for. -/
def noCache (s : State) (c : Nat) : State :=
  s.setFab { s.fab with reqs := s.fab.reqs.map fun (r : Req) =>
    match r.owner with
    | .cache d _ => if d = c then { r with serial := 1 } else r
    | _ => r }

/-- The lines of an L1 with the clean words of those that meet a condition gone. -/
def withoutClean (l : List L1Line) (f : L1Line → Bool) : List L1Line :=
  (l.map fun e => if f e then e.dropClean else e).filter fun e => !e.bytes.isEmpty

/-- The clean words of the lines that meet a condition invalidated (R163, R165, R167). -/
def l1Invalidate (s : State) (c : Nat) (f : L1Line → Bool) : State :=
  (s.noFill c).modCore c fun x => { x with l1 := withoutClean x.l1 f }

/-- Every clean global line of an L1 invalidated. -/
def l1InvalidateAll (s : State) (c : Nat) : State := s.l1Invalidate c fun _ => true

/-- The clean words of the lines that match a signature invalidated (R163). -/
def l1InvalidateSig (s : State) (c : Nat) (g : Sig) : State := s.l1Invalidate c fun e => sigHas g e.line

/-- The line of a core for a local physical line, empty when it has none. -/
def l1Open (s : State) (c line key cls : Nat) : L1Line :=
  (s.l1Find c (s.fab.fid * 2 ^ 33 + line) key).getD
    { line := s.fab.fid * 2 ^ 33 + line, key := key, cls := cls, bytes := [], dirty := [], since := [] }

/-- The invalid words of the sectors a set of offsets touches, filled from the home (the merging fill of R120). -/
def l1Fill (s : State) (e : L1Line) (sectors : List Nat) : L1Line × State :=
  sectors.foldl (fun (acc : L1Line × State) k =>
    let offs := invalidIn acc.1.bytes k
    let (bs, s) := acc.2.lineRead (acc.1.line % 2 ^ 33) acc.1.key acc.1.cls offs
    ({ acc.1 with bytes := putBytes acc.1.bytes (offs.zip bs) }, s)) (e, s)

/-- A plain load of local bytes within one line through an L1. -/
def l1Read (s : State) (c pa key cls n : Nat) : List Byte × State :=
  let e := s.l1Open c (pa / 128) key cls
  let offs := (List.range n).map (pa % 128 + ·)
  let (e, s) := s.l1Fill e (sectorsOf (offs.filter fun o => !wordValid e.bytes o))
  (offs.map fun o => amGet 0 e.bytes o, s.l1Put c e)

/-- A plain store of local bytes within one line into an L1 (R120, R158). -/
def l1Store (s : State) (c pa key cls : Nat) (patch : List (Nat × Byte)) : State :=
  if patch.isEmpty then s
  else
    let patch := patch.map fun b => (pa % 128 + b.1, b.2)
    let e := s.l1Open c (pa / 128) key cls
    let (e, s) := s.l1Fill e (partialSectors e.bytes patch)
    let since := (sectorsOf (offsOf patch)).foldl (fun t k => if (amFind t k).isSome then t else amSet t k s.clock) e.since
    s.l1Put c { e with bytes := putBytes e.bytes patch, dirty := addOffs e.dirty (offsOf patch), since := since }

/-- Valid bytes of an L1 copy brought up to date (R159); `line` names the line as R166 does. -/
def l1Update (s : State) (c line key : Nat) (patch : List (Nat × Byte)) : State :=
  match s.l1Find c line key with
  | none => s
  | some e => s.l1Put c { e with bytes := e.bytes.map fun b => (b.1, amGet b.2 (putBytes [] patch) b.1) }

/-- Before a core reads or writes local bytes at the home, its own dirty sectors there are written back, so that its
accesses to one byte keep program order (R160, log 19). -/
def l1Sync (s : State) (c pa key n : Nat) : State :=
  match s.l1Find c (lineName s.fab.fid pa) key with
  | none => s
  | some e =>
    if e.dirty.isEmpty then s
    else s.l1Writeback c e fun k => pa % 128 / 32 ≤ k && k ≤ (pa % 128 + n - 1) / 32

/-- A core reads local bytes within one line at the home, and its L1 copy follows (R159). -/
def coreHomeRead (s : State) (c pa key cls n : Nat) : List Byte × State :=
  let s := s.l1Sync c pa key n
  let (bs, s) := s.homeRead pa key cls n
  (bs, s.l1Update c (lineName s.fab.fid pa) key (bs.mapIdx fun k b => (pa % 128 + k, b)))

/-- A core writes local bytes within one line at the home, and its L1 copy follows (R159). -/
def coreHomeWrite (s : State) (c pa key cls : Nat) (patch : List (Nat × Byte)) : State :=
  let s := s.l1Sync c pa key (128 - pa % 128)
  let s := s.homePatch pa key cls patch
  s.l1Update c (lineName s.fab.fid pa) key (patch.map fun b => (pa % 128 + b.1, b.2))

/-- Whether a core's access at the home must wait: for its own dirty bytes of the line, which must reach the home first (R364),
or for a key load (R359). -/
def syncHeld (s : State) (c pa key : Nat) : Bool :=
  (s.writeHeld pa && (s.l1Find c (lineName s.fab.fid pa) key).any fun e => !e.dirty.isEmpty) || s.keyWaits key

/-- Whether a plain access of a core must wait for a key load (R359): its bytes are not all in the L1. -/
def fillHeld (s : State) (c pa key n : Nat) : Bool :=
  s.keyWaits key && !(s.l1Find c (lineName s.fab.fid pa) key).any fun e =>
    (List.range n).all fun o => wordValid e.bytes (pa % 128 + o)

/-- Whether some dirty sector of an L1 must wait to be written back (R364). -/
def flushHeld (s : State) (c : Nat) : Bool :=
  (s.core c).l1.any fun e => !e.dirty.isEmpty && s.writeHeld (e.line % 2 ^ 33 * 128)

/-- A release recorded at the home slice of a sector (R167). -/
def sigRecord (s : State) (pa : Nat) (g : Sig) : State :=
  let slice := s.mem.l2Home pa
  let st := amGet SigStore.empty s.mem.l2sig slice
  s.setMem { s.mem with l2sig := amPut SigStore.empty s.mem.l2sig slice (st.record 512 s.clock (pa / 32) g) }

/-- The signature an acquire of a sector receives from its home slice (R167). -/
def sigLookup (s : State) (pa : Nat) : Sig × State :=
  let slice := s.mem.l2Home pa
  let (g, st) := (amGet SigStore.empty s.mem.l2sig slice).lookup (pa / 32)
  (g, s.setMem { s.mem with l2sig := amPut SigStore.empty s.mem.l2sig slice st })

end State

end Sys2Proof.Machine
end

