-- ==== Sys2Proof/Machine/Xlat.lean ====
section
/-! DEFINITION. Global translation: page-table entries (R116), the walk (R115, R118, R403), the translation buffers
(R118, R119), the checks of R127 and R117, the constant cache (R114) and the clause cache (R226). -/

namespace Sys2Proof.Machine

/-! ### Page-table entries (Tables 6-3 and 6-4) -/

def pteV (e : DWord) : Bool := e.getLsbD 0
def pteW (e : DWord) : Bool := e.getLsbD 1
def pteX (e : DWord) : Bool := e.getLsbD 2
def pteSys (e : DWord) : Bool := e.getLsbD 3
def pteCls (e : DWord) : Nat := field e.toNat 4 4
def pteType (e : DWord) : Nat := field e.toNat 8 2
def pteTwin (e : DWord) : Nat := field e.toNat 10 2
def pteKey (e : DWord) : Nat := field e.toNat 12 12
def pteAddr (e : DWord) : Nat := field e.toNat 24 40
/-- The serviceable-absence bit of an entry with V = 0 (R403). -/
def pteSvc (e : DWord) : Bool := e.getLsbD 63
/-- An entry with its TWIN field, and its frame, rewritten (R116). -/
def pteSetTwin (e : DWord) (twin : Nat) : DWord := BitVec.ofNat 64 (setField e.toNat 10 2 twin)
def pteSetFrame (e : DWord) (frame : Nat) : DWord := BitVec.ofNat 64 (setField e.toNat 24 40 frame)

/-- The offset of an address within the page of a leaf. -/
def pageOff (big : Bool) (va : Nat) : Nat := if big then va % 2 ^ 32 else va % 2 ^ 19

/-- The local physical address that a leaf of TYPE 00 gives. -/
def leafPa (e : Tlb) (va : Nat) : Nat := pteAddr e.leaf * 2 ^ 19 + pageOff e.big va

/-- The package and the byte that a leaf of TYPE 01 gives: the fabric identity and frame of its ADDR. -/
def leafFid (e : Tlb) : Nat := field (pteAddr e.leaf) 27 13
def leafRemote (e : Tlb) (va : Nat) : Nat := field (pteAddr e.leaf) 0 27 * 2 ^ 19 + pageOff e.big va

/-- The frame bits that a 4 GiB leaf keeps zero (R116). -/
def bigMalformed (e : Tlb) : Bool := e.big && pteType e.leaf ≤ 1 && field e.leaf.toNat 24 13 != 0

/-- What a walk ends at (R403). -/
inductive Walk where
  | leaf (e : Tlb)
  | hard
  | absent
  deriving DecidableEq, Repr

/-- The kinds of access that translation tells apart (R117, R172). -/
inductive Use where
  | load | store | engRead | engWrite | fetch
  deriving DecidableEq, Repr

/-- What translation and permission give (step 3 of R386), window and shadow rules apart. -/
inductive Xl where
  | ok (e : Tlb)
  | fail (code : Nat)
  | absent
  deriving DecidableEq, Repr

namespace State

/-- One page-table entry read through L2 under key index 0 (R118, R428). -/
def readPte (s : State) (pa : Nat) : DWord × State :=
  let (x, s) := s.homeNat pa 0 0 8
  (BitVec.ofNat 64 x, s)

/-- A page-table entry rewritten by the device (R116). -/
def writePte (s : State) (pa : Nat) (e : DWord) : State := s.devWrite pa (leBytes 8 e.toNat)

/-- The walk of a virtual address below 2^57 in level order from the root (R115). -/
def walk (s : State) (ctx va : Nat) : Walk × State :=
  let (e1, s) := s.readPte ((s.ctx ctx).root + 8 * field va 45 12)
  if !pteV e1 then (if pteSvc e1 then .absent else .hard, s)
  else if pteType e1 ≠ 3 then (.hard, s)
  else
    let p2 := pteAddr e1 * 65536 + 8 * field va 32 13
    let (e2, s) := s.readPte p2
    if !pteV e2 then (if pteSvc e2 then .absent else .hard, s)
    else if pteType e2 ≠ 3 then
      (.leaf { ctx := ctx, vpage := va / 2 ^ 32, big := true, leaf := e2, eaddr := p2 }, s)
    else
      let p3 := pteAddr e2 * 65536 + 8 * field va 19 13
      let (e3, s) := s.readPte p3
      if !pteV e3 then (if pteSvc e3 then .absent else .hard, s)
      else if pteType e3 = 3 then (.hard, s)
      else (.leaf { ctx := ctx, vpage := va / 2 ^ 19, big := false, leaf := e3, eaddr := p3 }, s)

/-- Whether a buffer entry maps an address of a context. -/
def tlbHit (ctx va : Nat) (t : Tlb) : Bool := t.ctx == ctx && t.vpage == (if t.big then va / 2 ^ 32 else va / 2 ^ 19)

/-- A list with its k-th entry, counted modulo its length, left out. -/
def dropNth {α : Type} (l : List α) (k : Nat) : List α := l.eraseIdx (k % l.length)

/-- An entry put in a core's buffer: 64 entries for 512 KiB pages, 16 for 4 GiB pages; a full one drops an entry the
spec does not name (R118, log 12). -/
def tlbInsert (s : State) (l : List Tlb) (e : Tlb) : List Tlb :=
  let (same, other) := l.partition fun t => t.big == e.big
  let same := if same.length < (if e.big then 16 else 64) then same else dropNth same (Config.tlbVictim s.stepNo)
  e :: (same ++ other)

/-- The hub of a core. -/
def hubOfCore (c : Nat) : Nat := c / 32

/-- A translation through the core's buffer, the hub's buffer of 4,096 entries, or a walk (R118). -/
def translate (s : State) (c ctx va : Nat) : Walk × State :=
  match (s.core c).tlb.find? (tlbHit ctx va) with
  | some e => (.leaf e, s)
  | none =>
    let hub := amGet [] s.mem.hubTlb (hubOfCore c)
    match hub.find? (tlbHit ctx va) with
    | some e => (.leaf e, s.modCore c fun x => { x with tlb := s.tlbInsert x.tlb e })
    | none =>
      match s.walk ctx va with
      | (.leaf e, s) =>
        let hub := if hub.length < 4096 then hub else dropNth hub (Config.tlbVictim s.stepNo)
        let s := s.setMem { s.mem with hubTlb := amPut [] s.mem.hubTlb (hubOfCore c) (e :: hub) }
        (.leaf e, s.modCore c fun x => { x with tlb := s.tlbInsert x.tlb e })
      | r => r

/-- Translations that meet a condition dropped from every buffer of the package (R119). -/
def tlbDrop (s : State) (f : Tlb → Bool) : State :=
  s.setMem { s.mem with
    cores := s.mem.cores.map fun c => (c.1, { c.2 with tlb := c.2.tlb.filter fun t => !f t })
    hubTlb := s.mem.hubTlb.map fun h => (h.1, h.2.filter fun t => !f t) }

/-- A leaf rewritten by the device, its translations invalidated across the package first (R116, R119). -/
def rewriteLeaf (s : State) (eaddr : Nat) (e : DWord) : State := (s.tlbDrop fun t => t.eaddr == eaddr).writePte eaddr e

/-- Whether a local leaf breaks R127: a frame in a stack that the partition of the context does not own, or in no
stack. -/
def foreignStack (s : State) (part : Nat) (e : Tlb) : Bool :=
  let st := pteAddr e.leaf / 2 ^ 17
  pteType e.leaf == 0 && !(st < Config.stackCount && field (s.part part).stackMask st 1 == 1)

/-- Permission under R117. -/
def permits (e : DWord) (sys : Bool) (u : Use) : Bool :=
  (!pteSys e || sys) &&
  match u with
  | .store => pteW e
  | .engWrite => pteW e
  | .fetch => pteX e
  | .load => true
  | .engRead => true

/-- Translation and permission of one access (step 3 of R386; R116, R117, R127, R403). -/
def xlate (s : State) (c ctx va : Nat) (u : Use) : Xl × State :=
  if va ≥ 2 ^ 57 then (.fail 0x10, s)
  else
    match s.translate c ctx va with
    | (.hard, s) => (.fail 0x10, s)
    | (.absent, s) => (.absent, s)
    | (.leaf e, s) =>
      let x := s.ctx ctx
      if bigMalformed e || s.foreignStack x.part e then (.fail 0x10, s)
      else if !permits e.leaf x.sysc u then (.fail 0x12, s)
      else (.ok e, s)

/-- The place of an address under its leaf. -/
def locOf (e : Tlb) (va : Nat) : Loc :=
  if pteType e.leaf = 0 then .mem (leafPa e va) (pteKey e.leaf) (pteCls e.leaf)
  else if pteType e.leaf = 1 then .remote (leafFid e) (leafRemote e va) (pteKey e.leaf)
  else .win (pteAddr e.leaf * 64) (pteKey e.leaf) (pageOff e.big va)

/-- The start of the page that a parked access waits for: its 512 KiB page. -/
def pageOf (va : Nat) : Nat := va / 2 ^ 19

/-! ### Words read through a read-only cache of a core -/

/-- The key of a cached word: its physical address under its key index, and for a word of another package that
package's fabric identity. -/
def cacheKey (fid : Option Nat) (pa key : Nat) : Nat :=
  key * 2 ^ 60 + (match fid with | none => 0 | some f => (f + 1) * 2 ^ 46) + pa

/-- Words of a constant cache of 64 KiB (R12). -/
def constWords : Nat := 16384

/-- A word placed in a constant cache; a full one drops a word (log 87). -/
def constPut (s : State) (m : AMap Word) (k : Nat) (v : Word) : AMap Word :=
  amSet (if m.length < constWords || (amFind m k).isSome then m else dropNth m (Config.constVictim s.stepNo)) k v

/-- A constant-cache word: as the cache holds it, else read at the home and placed there (R114). -/
def constWord (s : State) (c pa key cls : Nat) : Word × State :=
  match amFind (s.core c).constCache (cacheKey none pa key) with
  | some v => (v, s)
  | none =>
    let (bs, s) := s.homeRead pa key cls 4
    let v := BitVec.ofNat 32 (leNat bs)
    (v, s.modCore c fun x => { x with constCache := s.constPut x.constCache (cacheKey none pa key) v })

/-- A clause-cache word (R226). -/
def codeWord (s : State) (c pa key cls : Nat) : DWord × State :=
  match amFind (s.core c).codeCache (cacheKey none pa key) with
  | some b => (b, s)
  | none =>
    let (x, s) := s.homeNat pa key cls 8
    (BitVec.ofNat 64 x, s.modCore c fun y => { y with codeCache := amSet y.codeCache (cacheKey none pa key) (BitVec.ofNat 64 x) })

end State

end Sys2Proof.Machine
end

