-- ==== Sys2Proof/Machine/FabOps.lean ====
section
/-! DEFINITION. Sending on the fabric: packets (Table 9-1), the choice of link and spine and the path pins (R180),
acknowledgement counters (R183), ordered streams (R185). -/

namespace Sys2Proof.Machine

/-- The name of a line of another package in the path-pin table. -/
def pinLine (fid addr : Nat) : Nat := lineName fid addr

/-- The smallest element of a list under a measure, the first on a tie. -/
def minBy (f : Nat → Nat) : List Nat → Option Nat
  | [] => none
  | a :: l =>
    match minBy f l with
    | none => some a
    | some b => if f b < f a then some b else some a

namespace State

/-- A packet to a package, with its identities and incarnations (R178). -/
def packetTo (s : State) (kind : PktKind) (fid : Nat) : Packet :=
  { kind := kind, dfid := fid, dinc := amGet 0 s.fab.peers fid, sfid := s.fab.fid, sinc := s.fab.inc, link := 0,
    spine := 0, score := 0, swarp := 0, serial := 0, ofcnt := 0, tag := 0, addr := 0, key := 0, ctx := 0, len := 0,
    atom := none, cas := false, wide := false, opnd := 0, opnd2 := 0, data := [], sig := 0, req := 0 }

/-- The most payload of a packet: two flits of 256 bytes, less the header of 32 (R179). -/
def packetBytes : Nat := 480

/-- The flits of a packet: its header of 32 bytes and its payload fill one, or two (R179); the bytes of a launch delivery, which
has no layout in Table 9-2, fill as many as they need (log 89). -/
def flitsOf (p : Packet) : Nat := max 1 ((p.data.length + 32 + 255) / 256)

/-- The link with the fewest queued flits, the lower number on a tie, and on its plane the spine that the leaf
reports least loaded (R180, log 13). -/
def pickPath (s : State) : Nat × Nat :=
  let queued := fun l => (amGet [] s.fab.links l).foldl (fun n p => n + flitsOf p) 0
  let up := (List.range 16).filter fun l => s.fab.linksUp.getLsbD l
  let link := (minBy queued up).getD 0
  (link, (minBy (fun sp => Config.spineLoad s.stepNo link sp) (List.range 64)).getD 0)

/-- A packet queued on its link. -/
def queuePacket (s : State) (p : Packet) : State :=
  s.setFab { s.fab with links := amSet s.fab.links p.link (amGet [] s.fab.links p.link ++ [p]) }

/-- A packet that takes no pin, sent on the path of the moment. -/
def sendFree (s : State) (p : Packet) : State :=
  let (l, sp) := s.pickPath
  s.queuePacket { p with link := l, spine := sp }

/-- The acknowledgement counter of a warp for a path group raised or lowered (R183). -/
def fpendAdd (s : State) (w : WarpId) (link : Nat) (up : Bool) : State :=
  s.modWarp w fun x => { x with fpend := x.fpend.mapIdx fun g n => if g == link / 4 then (if up then n + 1 else n - 1) else n }

/-- The warp that waits for a request, if a warp does. -/
def ownerWarp : ReqOwner → Option WarpId
  | .load w _ => some w
  | .store w _ => some w
  | .copy w _ => some w
  | .merge w _ _ => some w
  | .carter _ _ => none
  | .cache _ _ => none
  | .prefetch _ => none
  | .fetch w _ => some w
  | .nobody => none

/-- The kinds of packet that acknowledgement counters count (R183). -/
def countedWrite (k : PktKind) : Bool :=
  match k with
  | .write => true
  | .atomic => true
  | .orderedFlag => true
  | .message => true
  | .multicast => true
  | _ => false

/-- Requests whose packet leaves: from now they count for their timeout (R415) and, where they write, for their warp's
acknowledgement counter (R183). -/
def departed (s : State) (id : Nat) : State :=
  (s.fab.reqs.filter fun r => r.id == id && !r.out).foldl (fun (s : State) r =>
    match ownerWarp r.owner with
    | none => s
    | some w => if countedWrite r.kind then s.fpendAdd w r.link true else s)
    (s.setFab { s.fab with reqs := s.fab.reqs.map fun (r : Req) =>
      if r.id = id && !r.out then { r with sent := s.clock, out := true } else r })

/-- A request recorded under a fresh number and its packet queued. A write or atomic from a core takes the path pinned
for its line; with the pin table full and its line not pinned it cannot be sent yet. A read follows a pin and takes none
(R180). -/
def sendReq (s : State) (p : Packet) (r : Req) (pin : Option Nat) : Option State :=
  let go := fun (s : State) (l sp : Nat) =>
    let id := s.fab.nextReq
    let s := s.setFab { s.fab with
      nextReq := id + 1
      reqs := s.fab.reqs ++ [{ r with id := id, kind := p.kind, fid := p.dfid, link := l, pin := pin, sent := s.clock }] }
    s.queuePacket { p with link := l, spine := sp, req := id }
  match pin with
  | none =>
    let (l, sp) := match amFind (s.core r.core).pins (pinLine p.dfid p.addr) with
      | some q => if p.kind = .readReq then (q.link, q.spine) else s.pickPath
      | none => s.pickPath
    some (go s l sp)
  | some line =>
    let c := s.core r.core
    match amFind c.pins line with
    | some q => some (go (s.setCore r.core { c with pins := amSet c.pins line { q with count := q.count + 1 } }) q.link q.spine)
    | none =>
      if c.pins.length ≥ 256 then none
      else
        let (l, sp) := s.pickPath
        some (go (s.setCore r.core { c with pins := amSet c.pins line { link := l, spine := sp, count := 1 } }) l sp)

/-- A packet queued that the switches replicate to every member of a tree that a list names, with one request for each of them
under its number (R183, R194): `sr_fpend` counts one for each member's delivery (log 101). It takes no pin (R180), and no
incarnation of a member: the switches give each delivery its own (log 90). -/
def sendDown (s : State) (p : Packet) (r : Req) (members : List Nat) : State :=
  let (l, sp) := s.pickPath
  let id := s.fab.nextReq
  (s.setFab { s.fab with
    nextReq := id + 1
    reqs := s.fab.reqs ++ members.map fun f => { r with id := id, kind := p.kind, fid := f, link := l, pin := none } }).queuePacket
    { p with link := l, spine := sp, req := id }

/-- A request with no warp's particulars. -/
def bareReq (owner : ReqOwner) : Req :=
  { id := 0, owner := owner, kind := .readReq, fid := 0, link := 0, core := 0, slot := 0, serial := 0, pin := none,
    sent := 0, va := 0, lanes := [], reads := [], fwd := [] }

/-- A stream closed: its close packet carries its serial and count (R185). -/
def closeStream (s : State) (x : Warp) (st : Stream) : State :=
  s.sendFree { s.packetTo .streamClose st.fid with
    score := x.core, swarp := x.slot, serial := st.serial, ofcnt := st.count }

/-- Every stream of a warp closed: at a save, and at its exit as soon as its last write has been sent (R185). -/
def closeStreams (s : State) (w : WarpId) : State :=
  match s.warp? w with
  | none => s
  | some x => (x.streams.foldl (fun s st => s.closeStream x st) s).modWarp w fun x => { x with streams := [] }

/-- The ordered stream of a warp to a package, its count raised by one: the serial and the count before. None while
an older entry of the slot with the same serial has writes unacknowledged (R185). -/
def takeStream (s : State) (w : WarpId) (fid : Nat) : Option ((Nat × Nat) × State) :=
  match s.warp? w with
  | none => none
  | some x =>
    match x.streams.find? (fun t => t.fid == fid && t.count < 2 ^ 24 - 1) with
    | some t =>
      let rest := x.streams.filter fun u => u.fid != fid
      some ((t.serial, t.count), s.setWarp w { x with streams := rest ++ [{ t with count := t.count + 1 }] })
    | none =>
      let serial := amGet 0 (s.core x.core).slotSerial x.slot
      if s.fab.reqs.any fun r => r.stream && r.core == x.core && r.slot == x.slot && r.serial == serial then none
      else
        let closing := match x.streams.find? (fun t => t.fid == fid) with
          | some t => some t
          | none => if x.streams.length ≥ 8 then x.streams.head? else none
        let s := match closing with
          | some t => s.closeStream x t
          | none => s
        let rest := x.streams.filter fun u => some u.fid != closing.map (·.fid)
        let s := s.modCore x.core fun c => { c with slotSerial := amPut 0 c.slotSerial x.slot ((serial + 1) % 2 ^ 16) }
        some ((serial, 0), s.setWarp w { x with streams := rest ++ [{ fid := fid, serial := serial, count := 1 }] })

/-- Every stream of an exited warp closed, once it has nothing more to send (R185). -/
def closeExited (s : State) (w : WarpId) : State :=
  if (s.warp? w).any fun x => x.status == .exited && x.stores.all fun o => o.todo == 0 then s.closeStreams w else s

/-- A read of a remote line for a read-only cache, sent unless it is already on its way (R114, R181, R226): for the constant
cache, on behalf of a warp that waits for a word of it, or for the clause cache. -/
def fetchRemote (s : State) (c fid addr key : Nat) (who : Option WarpId) : State :=
  let line := addr / 128 * 128
  let mine := (who.map fun w => (wkey w, 0)).toList
  let asked := fun (r : Req) => r.owner == .cache c who.isNone && r.fid == fid && r.va == line && r.slot == key &&
      r.serial == 0
  let join := fun (r : Req) => if asked r && (mine.any fun k => !r.lanes.contains k) then { r with lanes := r.lanes ++ mine } else r
  if s.fab.reqs.any asked then s.setFab { s.fab with reqs := s.fab.reqs.map join }
  else
    let p := { s.packetTo .readReq fid with score := c, addr := line, key := key, len := 128 }
    (s.sendReq p { bareReq (.cache c who.isNone) with core := c, va := line, slot := key, lanes := mine } none).getD s

end State

end Sys2Proof.Machine
end

