-- ==== Sys2Proof/Machine/Scratch.lean ====
section
/-! DEFINITION. The team's virtual scratch: the scratch table (R105, R108, R109), the lane-private view (R106), frames,
and the Porter (R110 to R112, R407, R426). -/

namespace Sys2Proof.Machine

/-- `.sc` address of byte `a` of lane `i` in `.ln` (R106). -/
def lnToSc (i a : Nat) : Nat := 128 * (a / 4) + 4 * i + a % 4

/-- A scratch table entry with nothing in it. -/
def SttE.empty (used : Bool) : SttE :=
  { slot := 0, hass := false, used := used, own := 0, frame := 0, dirty := false, res := false }

/-- Where a byte of a frame is kept. -/
def frameAddr (core frame off : Nat) : Nat := (core * Config.frames + frame) * Config.pageBytes + off

namespace State

/-- Pages of a team's core scratch, and of both its spaces (R105). -/
def scPages (s : State) (t : Nat) : Nat := ((s.gridOf? t).map fun g => g.2.vscr / 2048).getD 0
def allPages (s : State) (t : Nat) : Nat := ((s.gridOf? t).map fun g => (g.2.vscr + g.2.clm) / 2048).getD 0

/-- The scratch table entry of a page (R105, R109). -/
def stt (s : State) (t page : Nat) : SttE :=
  match s.team? t with
  | none => SttE.empty false
  | some tm => amGet (SttE.empty (page < s.allPages t)) tm.stt page

def setStt (s : State) (t page : Nat) (e : SttE) : State :=
  s.modTeam t fun tm => { tm with stt := amSet tm.stt page e }

/-- The byte of the whole virtual scratch, core scratch first, that a `.sc` or `.cl` byte is (R105). -/
def scrIndex (s : State) (t : Nat) (cl : Bool) (a : Nat) : Nat := if cl then s.scPages t * 2048 + a else a

/-- The core that a page must lie on for an access from a core of the team's cluster (R108, R110). -/
def targetCore (s : State) (t page core : Nat) : Nat :=
  let n := s.scPages t
  if page < n then core else core / 4 * 4 + (page - n) % 4

/-- Whether the Porter serves an access at once: the page resident where the access needs it (R110). -/
def pageReady (s : State) (t page core : Nat) : Bool :=
  let e := s.stt t page
  e.res && e.own == s.targetCore t page core % 4

/-- The cluster a team is placed on. -/
def clusterOf (s : State) (t : Nat) : Nat := ((s.team? t).map Team.cluster).getD 0

/-- The physical address of a backing slot (R112). -/
def slotPa (s : State) (part slot : Nat) : Nat := (s.part part).sback + 2048 * slot

/-- Bytes of a page, wherever it lies: its frame, its backing slot, or nothing written yet (R105, R108, R112). -/
def pageRead (s : State) (t page off n : Nat) : List Byte × State :=
  let e := s.stt t page
  if e.res then (Memory.read s.mem.frameMem (frameAddr (s.clusterOf t * 4 + e.own) e.frame off) n, s)
  else if e.hass then s.homeRead (s.slotPa (s.partOf t) e.slot + off) 0 15 n
  else (List.replicate n 0, s)

/-- The cut of a scratch range into pages: page, first offset, bytes. -/
def pageCuts : Nat → Nat → Nat → List (Nat × Nat × Nat)
  | 0, _, _ => []
  | fuel + 1, b, n =>
    if n = 0 then []
    else
      let k := min n (2048 - b % 2048)
      (b / 2048, b % 2048, k) :: pageCuts fuel (b + k) (n - k)

/-- Bytes of the virtual scratch. -/
def scrRead (s : State) (t b n : Nat) : List Byte × State :=
  (pageCuts (n / 2048 + 2) b n).foldl (fun (acc : List Byte × State) c =>
    let (bs, s) := acc.2.pageRead t c.1 c.2.1 c.2.2
    (acc.1 ++ bs, s)) ([], s)

/-- The time of the last access to the frame of a resident page. -/
def touchPage (s : State) (t page : Nat) : State :=
  let e := s.stt t page
  if e.res then
    s.modCore (s.clusterOf t * 4 + e.own) fun x =>
      { x with frames := amMod x.frames e.frame fun f => { f with last := s.clock } }
  else s

/-- (offset, byte) pairs written to a resident page, which becomes dirty (R110). -/
def pageWrite (s : State) (t page : Nat) (patch : List (Nat × Byte)) : State :=
  let e := s.stt t page
  if e.res then
    let s := s.setMem { s.mem with
      frameMem := Memory.patch s.mem.frameMem (frameAddr (s.clusterOf t * 4 + e.own) e.frame 0) patch }
    (s.setStt t page { e with dirty := true }).touchPage t page
  else s

/-- (scratch byte, byte) pairs written to resident pages. -/
def scrPatch (s : State) (t : Nat) (patch : List (Nat × Byte)) : State :=
  ((patch.map fun b => b.1 / 2048).dedup).foldl (fun s page =>
    s.pageWrite t page ((patch.filter fun b => b.1 / 2048 == page).map fun b => (b.1 % 2048, b.2))) s

/-- The pages a scratch range touches. -/
def pagesOf (b n : Nat) : List Nat := if n = 0 then [] else (List.range ((b + n - 1) / 2048 - b / 2048 + 1)).map (b / 2048 + ·)

/-- A miss in the order of service: by the cycle in which it occurred, then by logical core (R110). -/
def putMiss (m : Miss) : List Miss → List Miss
  | [] => [m]
  | a :: l => if m.since < a.since || (m.since = a.since && m.asker < a.asker) then m :: a :: l else a :: putMiss m l

/-- A miss queued for the Porter of the team's cluster, for an operation `id` of a warp; misses to one page that one service
meets coalesce (R110). -/
def queueMiss (s : State) (t page core widx id : Nat) : State :=
  let cl := s.clusterOf t
  let l := amGet [] s.mem.misses cl
  let c := s.targetCore t page core
  let hit := fun (m : Miss) => m.team == t && m.page == page && m.core == c
  let join := fun (m : Miss) => if hit m && !m.waits.contains (widx, id) then { m with waits := m.waits ++ [(widx, id)] } else m
  let l := if l.any hit then l.map join
    else putMiss { team := t, page := page, core := c, warp := widx, since := s.clock, asker := core, waits := [(widx, id)] } l
  s.setMem { s.mem with misses := amSet s.mem.misses cl l }

/-! ### The Porter -/

/-- Whether a range-scoreboard entry of the team covers part of a page (R111, R170). -/
def pageHeld (s : State) (t page : Nat) : Bool :=
  s.mem.cores.any fun c => c.2.scoreboard.any fun e =>
    e.team == t && e.lo < page * 2048 + 2048 && page * 2048 < e.hi

/-- A backing slot for a page: its own, else the lowest free slot of the partition (R112, R426). -/
def takeSlot (s : State) (t page : Nat) : Option State :=
  let e := s.stt t page
  if e.hass then some s
  else
    let p := s.partOf t
    match lowestFree (s.part p).slots (s.part p).sslots with
    | none => none
    | some k => some ((s.modPart p fun x => { x with slots := x.slots ++ [k] }).setStt t page { e with hass := true, slot := k })

/-- A resident page written to its slot, class 15 and key index 0 (R111, R112). DIRTY stays until the page is fetched again
(Table 6-2). -/
def writePage (s : State) (t page : Nat) : State :=
  let e := s.stt t page
  let bs := Memory.read s.mem.frameMem (frameAddr (s.clusterOf t * 4 + e.own) e.frame 0) 2048
  s.homeWrite (s.slotPa (s.partOf t) e.slot) 0 15 bs

/-- A page no longer resident, its frame free. -/
def dropPage (s : State) (t page : Nat) : State :=
  let e := s.stt t page
  (s.modCore (s.clusterOf t * 4 + e.own) fun x => { x with frames := amErase x.frames e.frame }).setStt t page
    { e with res := false }

/-- `porter_victim` (R111): the least recently accessed frame that nothing holds, the lowest-numbered on a tie. A
dirty one that finds no slot is passed over for the least recent clean one (R407). The state after its write-out with
the frame free, or none; the flag says that a dirty page waited for a slot. -/
def porterVictim (s : State) (core : Nat) : Option (Nat × State) × Bool :=
  let fr := (s.core core).frames.filter fun f => !s.pageHeld f.2.team f.2.page
  let pick := fun (l : List Nat) => minBy (fun k => ((amFind (s.core core).frames k).map Frame.last).getD 0) l
  match pick (fr.map (·.1)) with
  | none => (none, false)
  | some k =>
    match amFind (s.core core).frames k with
    | none => (none, false)
    | some f =>
      if !(s.stt f.team f.page).dirty then (some (k, s.dropPage f.team f.page), false)
      else
        match s.takeSlot f.team f.page with
        | some s => (some (k, (s.writePage f.team f.page).dropPage f.team f.page), false)
        | none =>
          let clean := fr.filter fun g => !(s.stt g.2.team g.2.page).dirty
          match pick (clean.map (·.1)) with
          | none => (none, true)
          | some k =>
            match amFind (s.core core).frames k with
            | none => (none, true)
            | some f => (some (k, s.dropPage f.team f.page), false)

/-- A frame of a core made free: the lowest-numbered that holds no page, or a victim's (R110). -/
def getFrame (s : State) (core : Nat) : Option (Nat × State) × Bool :=
  match lowestFree ((s.core core).frames.map (·.1)) Config.frames with
  | some k => (some (k, s), false)
  | none => s.porterVictim core

/-- A frame filled with bytes and given to a page. -/
def placePage (s : State) (t page core frame : Nat) (bs : List Byte) (dirty : Bool) : State :=
  let e := s.stt t page
  let s := s.setMem { s.mem with
    frameMem := Memory.write s.mem.frameMem (frameAddr core frame 0) bs }
  let s := s.modCore core fun x => { x with frames := amSet x.frames frame { team := t, page := page, last := s.clock } }
  s.setStt t page { e with res := true, own := core % 4, frame := frame, dirty := dirty }

/-- The record of R407, once for a team that waits for a slot. -/
def slotsExhausted (s : State) (t : Nat) : State :=
  let p := s.partOf t
  if (s.part p).exhausted.contains t then s
  else
    let s := s.modPart p fun x => { x with exhausted := x.exhausted ++ [t] }
    match s.gridOf? t with
    | none => s
    | some (_, g) => s.postEvent g.ctx
        { TrapRec.zero with code := 0x14, sub := 0x30, addr := g.recAddr, aux := ((s.team? t).map Team.idx).getD 0 }

/-- `porter_serve` (R110) of one page for a core; none when no frame can be had. -/
def porterServe (s : State) (t page core : Nat) : Option State × Bool :=
  let e := s.stt t page
  if e.res && s.clusterOf t * 4 + e.own == core then (some s, false)
  else
    match s.getFrame core with
    | (none, w) => (none, w)
    | (some (f, s), w) =>
      let e := s.stt t page
      let (bs, s) := s.pageRead t page 0 2048
      if e.res then (some ((s.dropPage t page).placePage t page core f bs e.dirty), w)
      else (some (s.placePage t page core f bs false), w)

end State

end Sys2Proof.Machine
end

