-- ==== Sys2Proof/Machine/Operands.lean ====
section
/-! DEFINITION. The operands of every instruction: the runs of registers and predicates it reads and writes (R230,
R390), the counters it raises (Table 11-8), its group, and the checks of R229 that follow decoding. -/

namespace Sys2Proof.Machine

/-- A run of registers: the field number of its first, and its length. -/
abbrev Run := Nat × Nat

def r1 (r : Reg) : List Run := [(r.field, 1)]
def rN (r : Reg) (n : Nat) : List Run := [(r.field, n)]
def p2 (p : Pair) : List Run := [(p.field, 2)]
def rIf (pair : Bool) (r : Reg) : List Run := [(r.field, if pair then 2 else 1)]
def rB : SrcB → List Run
  | .reg r => r1 r
  | .win _ _ => []
  | .imm _ => []
def rB64 : SrcB64 → List Run
  | .pair p => p2 p
  | .win _ _ => []
  | .imm _ => []
/-- Registers of a data operand of a width (Table 11-6). -/
def rW (w : Width) (r : Reg) : List Run := [(r.field, match w with | .b64 => 2 | .b128 => 4 | _ => 1)]
/-- A base operand: a pair in `.gl`. -/
def rS (sp : Space) (r : Reg) : List Run := rIf (sp == .gl) r

/-- Elements of a register word under a slot (R287). -/
def Slot.words (s : Slot) : Nat := ((elemOf s.efmt).map Elem.perWord).getD 1

/-- The shape that the format of slot A gives a product (Table 16-3): A registers, K of a dense and of a sparse
product, metadata registers. -/
def mmaShape : Nat → Option (Nat × Nat × Nat × Nat)
  | 0x01 => some (16, 32, 64, 4)
  | 0x02 => some (16, 32, 64, 4)
  | 0x10 => some (16, 64, 128, 8)
  | 0x11 => some (16, 64, 128, 8)
  | 0x12 => some (12, 64, 128, 8)
  | 0x13 => some (12, 64, 128, 8)
  | 0x14 => some (16, 128, 256, 16)
  | 0x30 => some (16, 256, 512, 32)
  | _ => none

/-- Whether Table 16-3 pairs the formats of slots A and B. -/
def mmaPairs (a b : Nat) : Bool :=
  if a == 0x01 || a == 0x02 then b == 0x01 || b == 0x02
  else if a == 0x10 || a == 0x11 || a == 0x30 then b == 0x10 || b == 0x11
  else b == 0x12 || b == 0x13 || b == 0x14

/-- Blocks of scales along a depth of K (R319). -/
def scaleBlocks (s : Slot) (k : Nat) : Nat := max 1 (k / 2 ^ s.log2blk)

/-- Bytes of the scales of one row or column; none when the slot has no scales (R319). -/
def scaleRun (s : Slot) (k : Nat) : Nat := if s.sfmt = 0 then 0 else scaleBlocks s k * scaleBytes s.sfmt

/-- Registers of an A fragment and its scales (R319). -/
def mmaRun (s : Slot) (sparse : Bool) : Nat :=
  match mmaShape s.efmt with
  | none => 1
  | some (nf, k, ks, _) => nf + (scaleRun s (if sparse then ks else k) + 3) / 4

/-- Metadata registers of `MMAS` (Table 16-3). -/
def mmaMeta (s : Slot) : Nat := ((mmaShape s.efmt).map fun x => x.2.2.2).getD 1

/-- Whether an instruction accepts the slots it names (R213, R287, R288, R290, R316, R324). -/
def slotsOk (slot : Nat → Slot) : Instr → Bool
  | .cvtn _ _ _ _ n => (slot n).ok && (slot n).efmt != 0x30
  | .cvtw _ _ _ _ n => (slot n).ok
  | .scalq _ _ _ n => (slot n).ok
  | .mma _ _ _ _ m => (slot m.sa).ok && (slot m.sb).ok && (mmaShape (slot m.sa).efmt).isSome &&
      (slot m.sa).efmt != 0x30 && mmaPairs (slot m.sa).efmt (slot m.sb).efmt
  | .mmac _ _ _ _ m => (slot m.sa).ok && (slot m.sb).ok && (slot m.sa).efmt == 0x30 &&
      mmaPairs (slot m.sa).efmt (slot m.sb).efmt
  | .mmas _ _ _ _ _ m => (slot m.sa).ok && (slot m.sb).ok && (mmaShape (slot m.sa).efmt).isSome &&
      mmaPairs (slot m.sa).efmt (slot m.sb).efmt
  | .mst _ _ _ cvt n _ => !cvt || ((slot n).ok && mstAccepts (slot n))
  | _ => true
where
  /-- Formats of `MST.cvt` (R324). -/
  mstAccepts (f : Slot) : Bool := f.sfmt == 0 && f.efmt != 0x00 && f.efmt != 0x30

/-- The register runs an instruction reads. -/
def readRuns (slot : Nat → Slot) : Instr → List Run
  | .brx _ a => p2 a
  | .callx _ _ a => p2 a
  | .ret _ a => p2 a
  | .bara _ _ c _ => r1 c
  | .barw _ a _ => r1 a
  | .bars _ c _ => r1 c
  | .swrite _ n b => rIf (srWide n) b
  | .tagq _ _ a => r1 a
  | .launch _ _ a => p2 a
  | .lwait _ _ a _ => p2 a
  | .tlbinv _ a b _ => p2 a ++ r1 b
  | .iadd _ _ a b _ => r1 a ++ rB b
  | .isub _ _ a b _ => r1 a ++ rB b
  | .imul _ _ a b => r1 a ++ rB b
  | .imulh _ _ a b _ => r1 a ++ rB b
  | .imad _ _ a b c => r1 a ++ r1 b ++ r1 c
  | .imadw _ _ a b c _ => r1 a ++ r1 b ++ p2 c
  | .iadd64 _ _ a b => p2 a ++ rB64 b
  | .isub64 _ _ a b => p2 a ++ rB64 b
  | .imin _ _ a b _ => r1 a ++ rB b
  | .imax _ _ a b _ => r1 a ++ rB b
  | .iabs _ _ a _ => r1 a
  | .ineg _ _ a _ => r1 a
  | .isat _ _ a _ => r1 a
  | .idiv _ _ a b _ => r1 a ++ rB b
  | .irem _ _ a b _ => r1 a ++ rB b
  | .idot4 _ _ a b c _ _ => r1 a ++ r1 b ++ r1 c
  | .idot2 _ _ a b c _ _ => r1 a ++ r1 b ++ r1 c
  | .lea _ _ a b _ _ => p2 a ++ rB b
  | .and _ _ a b => r1 a ++ rB b
  | .or _ _ a b => r1 a ++ rB b
  | .xor _ _ a b => r1 a ++ rB b
  | .andn _ _ a b => r1 a ++ rB b
  | .not _ _ a => r1 a
  | .lop3 _ d a b _ => r1 d ++ r1 a ++ r1 b
  | .shl _ _ a b => r1 a ++ rB b
  | .shr _ _ a b => r1 a ++ rB b
  | .sar _ _ a b => r1 a ++ rB b
  | .rotl _ _ a b => r1 a ++ rB b
  | .funl _ _ a b c => r1 a ++ r1 b ++ r1 c
  | .funr _ _ a b c => r1 a ++ r1 b ++ r1 c
  | .popc _ _ a => r1 a
  | .clz _ _ a => r1 a
  | .ctz _ _ a => r1 a
  | .brev _ _ a => r1 a
  | .bfx _ _ a b _ => r1 a ++ rB b
  | .bfi _ _ a b c => r1 a ++ r1 b ++ r1 c
  | .prmt _ _ a b c => r1 a ++ r1 b ++ r1 c
  | .isetp _ _ a b _ _ => r1 a ++ rB b
  | .sel _ _ a b _ => r1 a ++ rB b
  | .mov _ _ b => rB b
  | .movu _ _ b => r1 b
  | .v2p _ _ a _ => r1 a
  | .shfl _ _ a b _ => r1 a ++ rB b
  | .bcast _ _ a b => r1 a ++ rB b
  | .redux _ _ a _ => r1 a
  | .scan _ _ a _ _ => r1 a
  | .match _ _ a w => rIf w a
  | .cvtif _ _ a _ _ _ w => rIf w a
  | .cvtfi _ _ a _ _ f _ => rIf (f == .f64) a
  | .cvtff _ _ a _ _ f => rIf (f == .f64) a
  | .cvtn _ _ a b n => rN a (slot n).words ++ rB b
  | .cvtw _ _ a b _ => r1 a ++ rB b
  | .cbdec _ _ a _ _ => r1 a
  | .scalq _ _ a _ => r1 a
  | .amax _ _ a b _ _ => r1 a ++ rB b
  | .fadd _ _ a b _ => r1 a ++ rB b
  | .fsub _ _ a b _ => r1 a ++ rB b
  | .fmul _ _ a b _ => r1 a ++ rB b
  | .ffma _ _ a b c _ => r1 a ++ r1 b ++ r1 c
  | .fmin _ _ a b => r1 a ++ rB b
  | .fmax _ _ a b => r1 a ++ rB b
  | .fsetp _ _ a b _ => r1 a ++ rB b
  | .fclass _ _ a => r1 a
  | .frnd _ _ a _ => r1 a
  | .frcp _ _ a => r1 a
  | .frsq _ _ a => r1 a
  | .fsqrt _ _ a _ => r1 a
  | .fdiv _ _ a b _ => r1 a ++ rB b
  | .fexpf _ _ a => r1 a
  | .flogf _ _ a => r1 a
  | .fsin _ _ a => r1 a
  | .fcos _ _ a => r1 a
  | .fscale _ _ a b _ => r1 a ++ rB b
  | .fexpo _ _ a => r1 a
  | .fmant _ _ a => r1 a
  | .hadd2 _ _ a b _ => r1 a ++ rB b
  | .hmul2 _ _ a b _ => r1 a ++ rB b
  | .hfma2 _ _ a b c _ => r1 a ++ r1 b ++ r1 c
  | .hmnmx2 _ _ a b _ _ => r1 a ++ rB b
  | .fdot2 _ _ a b c _ => r1 a ++ r1 b ++ r1 c
  | .dadd _ _ a b _ => p2 a ++ rB64 b
  | .dmul _ _ a b _ => p2 a ++ rB64 b
  | .dfma _ _ a b c _ => p2 a ++ p2 b ++ p2 c
  | .ld _ sp _ _ a _ => rS sp a
  | .st _ sp w _ d a _ => rS sp a ++ rW w d
  | .ldk _ _ a _ _ => r1 a
  | .ldacq _ sp _ _ _ a _ => rS sp a
  | .strel _ sp w _ d a _ => rS sp a ++ rW w d
  | .atom _ _ m _ a b => rS m.space a ++ rIf m.b64 b
  | .atomc _ m _ a b c => rS m.space a ++ rIf m.b64 b ++ rIf m.b64 c
  | .red _ _ m a b => rS m.space a ++ rIf m.b64 b
  | .cwb _ _ a b => p2 a ++ r1 b
  | .cinv _ _ a b => p2 a ++ r1 b
  | .cpf _ _ a _ => p2 a
  | .slcdr _ b => r1 b
  | .cpy _ ds ss d a b _ => rS ds d ++ rS ss a ++ r1 b
  | .cpyt _ ds ss d a b _ => rS ds d ++ rS ss a ++ rN b 3
  | .cpyx _ ds ss d a b _ => rS ds d ++ rS ss a ++ rN b 2
  | .cpyo _ ds ss d a b _ => rS ds d ++ rS ss a ++ rN b 2
  | .cwait _ a => r1 a
  | .shopen _ a b => p2 a ++ r1 b
  | .publish _ _ a b => p2 a ++ r1 b
  | .shdrop _ a b => p2 a ++ r1 b
  | .put _ ss n d a b _ => rIf true d ++ rS ss a ++ rIf n b
  | .get _ ds n d a b _ => rS ds d ++ rIf true a ++ rIf n b
  | .mcast _ a b c => p2 a ++ rN b 2 ++ r1 c
  | .lreg _ _ a b c => p2 a ++ r1 b ++ r1 c
  | .ldereg _ b => r1 b
  | .send _ _ a b c => p2 a ++ r1 b ++ r1 c
  | .rpost _ _ _ a b c => p2 a ++ r1 b ++ p2 c
  | .rpoll _ _ a => r1 a
  | .coll _ a => r1 a
  | .skmrg _ a b _ => p2 a ++ p2 b
  | .tarm _ _ a b c => r1 a ++ p2 b ++ p2 c
  | .tadd _ a b => r1 a ++ p2 b
  | .trd _ _ a => r1 a
  | .tdisarm _ _ a => r1 a
  | .mma _ _ a b m => rN a (mmaRun (slot m.sa) false) ++ r1 b
  | .mmas _ _ a b c m => rN a (mmaRun (slot m.sa) true) ++ r1 b ++ rN c (mmaMeta (slot m.sa))
  | .mmac _ _ a b m => rN a (mmaRun (slot m.sa) false) ++ r1 b
  | .mwr _ _ a _ => rN a 16
  | .mld _ _ a => r1 a
  | .mst _ _ gl _ _ a => rIf gl a
  | .skins _ _ a b c _ => p2 a ++ p2 b ++ r1 c
  | .skdel _ _ a b c _ => p2 a ++ p2 b ++ r1 c
  | .skqry _ _ a b _ => p2 a ++ p2 b
  | .skcard _ _ a _ => p2 a
  | .skrank _ _ a b _ => p2 a ++ r1 b
  | .skqtl _ _ a b _ => p2 a ++ r1 b
  | .skhash _ _ a b n => [(a.field, 2 * n)] ++ p2 b
  | .skfold _ _ a => p2 a
  | .skclr _ _ a => p2 a
  | .skstat _ _ a _ => p2 a
  | .skinv _ a => p2 a
  | _ => []

/-- The register runs an instruction writes. -/
def writeRuns (slot : Nat → Slot) : Instr → List Run
  | .call _ d _ => p2 d
  | .callx _ d _ => p2 d
  | .bara _ d _ _ => r1 d
  | .sread _ d n => rIf (srWide n) d
  | .reggrow _ d _ _ => r1 d
  | .tagq _ d _ => r1 d
  | .launch _ d _ => p2 d
  | .lwait _ d _ _ => r1 d
  | .tinfo _ d _ => r1 d
  | .iadd _ d _ _ _ => r1 d
  | .isub _ d _ _ _ => r1 d
  | .imul _ d _ _ => r1 d
  | .imulh _ d _ _ _ => r1 d
  | .imad _ d _ _ _ => r1 d
  | .imadw _ d _ _ _ _ => p2 d
  | .iadd64 _ d _ _ => p2 d
  | .isub64 _ d _ _ => p2 d
  | .imin _ d _ _ _ => r1 d
  | .imax _ d _ _ _ => r1 d
  | .iabs _ d _ _ => r1 d
  | .ineg _ d _ _ => r1 d
  | .isat _ d _ _ => r1 d
  | .idiv _ d _ _ _ => r1 d
  | .irem _ d _ _ _ => r1 d
  | .idot4 _ d _ _ _ _ _ => r1 d
  | .idot2 _ d _ _ _ _ _ => r1 d
  | .lea _ d _ _ _ _ => p2 d
  | .and _ d _ _ => r1 d
  | .or _ d _ _ => r1 d
  | .xor _ d _ _ => r1 d
  | .andn _ d _ _ => r1 d
  | .not _ d _ => r1 d
  | .lop3 _ d _ _ _ => r1 d
  | .shl _ d _ _ => r1 d
  | .shr _ d _ _ => r1 d
  | .sar _ d _ _ => r1 d
  | .rotl _ d _ _ => r1 d
  | .funl _ d _ _ _ => r1 d
  | .funr _ d _ _ _ => r1 d
  | .popc _ d _ => r1 d
  | .clz _ d _ => r1 d
  | .ctz _ d _ => r1 d
  | .brev _ d _ => r1 d
  | .bfx _ d _ _ _ => r1 d
  | .bfi _ d _ _ _ => r1 d
  | .prmt _ d _ _ _ => r1 d
  | .sel _ d _ _ _ => r1 d
  | .mov _ d _ => r1 d
  | .movi _ d _ => r1 d
  | .movu _ d _ => r1 d
  | .p2v _ d _ => r1 d
  | .pcnt _ d _ => r1 d
  | .shfl _ d _ _ _ => r1 d
  | .bcast _ d _ _ => r1 d
  | .redux _ d _ _ => r1 d
  | .scan _ d _ _ _ => r1 d
  | .match _ d _ _ => r1 d
  | .cvtif _ d _ _ _ f _ => rIf (f == .f64) d
  | .cvtfi _ d _ _ _ _ w => rIf w d
  | .cvtff _ d _ _ x _ => rIf (x == .f64) d
  | .cvtn _ d _ _ _ => r1 d
  | .cvtw _ d _ _ n => rN d (slot n).words
  | .cbdec _ d _ f _ => rN d (cbRegs f)
  | .scalq _ d _ _ => r1 d
  | .amax _ d _ _ _ _ => r1 d
  | .fadd _ d _ _ _ => r1 d
  | .fsub _ d _ _ _ => r1 d
  | .fmul _ d _ _ _ => r1 d
  | .ffma _ d _ _ _ _ => r1 d
  | .fmin _ d _ _ => r1 d
  | .fmax _ d _ _ => r1 d
  | .fclass _ d _ => r1 d
  | .frnd _ d _ _ => r1 d
  | .frcp _ d _ => r1 d
  | .frsq _ d _ => r1 d
  | .fsqrt _ d _ _ => r1 d
  | .fdiv _ d _ _ _ => r1 d
  | .fexpf _ d _ => r1 d
  | .flogf _ d _ => r1 d
  | .fsin _ d _ => r1 d
  | .fcos _ d _ => r1 d
  | .fscale _ d _ _ _ => r1 d
  | .fexpo _ d _ => r1 d
  | .fmant _ d _ => r1 d
  | .hadd2 _ d _ _ _ => r1 d
  | .hmul2 _ d _ _ _ => r1 d
  | .hfma2 _ d _ _ _ _ => r1 d
  | .hmnmx2 _ d _ _ _ _ => r1 d
  | .fdot2 _ d _ _ _ _ => r1 d
  | .dadd _ d _ _ _ => p2 d
  | .dmul _ d _ _ _ => p2 d
  | .dfma _ d _ _ _ _ => p2 d
  | .ld _ _ w d _ _ => rW w d
  | .ldk _ d _ _ w => rIf w d
  | .ldacq _ _ w _ d _ _ => rW w d
  | .atom _ _ m d _ _ => rIf m.b64 d
  | .atomc _ m d _ _ _ => rIf m.b64 d
  | .cseal _ d => r1 d
  | .lreg _ d _ _ _ => r1 d
  | .rpost _ _ d _ _ _ => r1 d
  | .rpoll _ d _ => p2 d
  | .tarm _ d _ _ _ => r1 d
  | .trd _ d _ => p2 d
  | .tdisarm _ d _ => r1 d
  | .mrd _ d _ _ => rN d 16
  | .skins _ d _ _ _ _ => r1 d
  | .skdel _ d _ _ _ _ => r1 d
  | .skqry _ d _ _ c => r1 d ++ r1 c
  | .skcard _ d _ c => p2 d ++ r1 c
  | .skrank _ d _ _ c => p2 d ++ r1 c
  | .skqtl _ d _ _ c => r1 d ++ r1 c
  | .skhash _ d _ _ _ => p2 d
  | .skstat _ d _ _ => p2 d
  | _ => []

/-- The predicates an instruction reads beside its guard. -/
def predReads : Instr → List Nat
  | .sel _ _ _ _ pc => [pc]
  | .plop3 _ pd pa pb _ => [pd, pa, pb]
  | .p2v _ _ pa => [pa]
  | .vote _ _ pa _ => [pa]
  | .pcnt _ _ pa => [pa]
  | _ => []

/-- The predicates an instruction writes. -/
def predWrites : Instr → List Nat
  | .isetp _ pd _ _ _ _ => [pd]
  | .plop3 _ pd _ _ _ => [pd]
  | .v2p _ pd _ _ => [pd]
  | .vote _ pd _ _ => [pd]
  | .elect _ pd => [pd]
  | .fsetp _ pd _ _ _ => [pd]
  | _ => []

/-- The guard of an instruction; an event has none. -/
def guardOf : Instr → Guard
  | .nop g => g
  | .bra g _ => g
  | .brx g _ => g
  | .call g _ _ => g
  | .callx g _ _ => g
  | .ret g _ => g
  | .exit g => g
  | .yield g => g
  | .wait g _ _ => g
  | .bara g _ _ _ => g
  | .barw g _ _ => g
  | .bars g _ _ => g
  | .rput g _ _ => g
  | .rget g _ _ _ => g
  | .rrel g _ _ => g
  | .sread g _ _ => g
  | .swrite g _ _ => g
  | .reggrow g _ _ _ => g
  | .regshrink g _ => g
  | .tagq g _ _ => g
  | .launch g _ _ => g
  | .lwait g _ _ _ => g
  | .trap g _ => g
  | .brk g _ => g
  | .tret g _ => g
  | .tinfo g _ _ => g
  | .tlbinv g _ _ _ => g
  | .iadd g _ _ _ _ => g
  | .isub g _ _ _ _ => g
  | .imul g _ _ _ => g
  | .imulh g _ _ _ _ => g
  | .imad g _ _ _ _ => g
  | .imadw g _ _ _ _ _ => g
  | .iadd64 g _ _ _ => g
  | .isub64 g _ _ _ => g
  | .imin g _ _ _ _ => g
  | .imax g _ _ _ _ => g
  | .iabs g _ _ _ => g
  | .ineg g _ _ _ => g
  | .isat g _ _ _ => g
  | .idiv g _ _ _ _ => g
  | .irem g _ _ _ _ => g
  | .idot4 g _ _ _ _ _ _ => g
  | .idot2 g _ _ _ _ _ _ => g
  | .lea g _ _ _ _ _ => g
  | .and g _ _ _ => g
  | .or g _ _ _ => g
  | .xor g _ _ _ => g
  | .andn g _ _ _ => g
  | .not g _ _ => g
  | .lop3 g _ _ _ _ => g
  | .shl g _ _ _ => g
  | .shr g _ _ _ => g
  | .sar g _ _ _ => g
  | .rotl g _ _ _ => g
  | .funl g _ _ _ _ => g
  | .funr g _ _ _ _ => g
  | .popc g _ _ => g
  | .clz g _ _ => g
  | .ctz g _ _ => g
  | .brev g _ _ => g
  | .bfx g _ _ _ _ => g
  | .bfi g _ _ _ _ => g
  | .prmt g _ _ _ _ => g
  | .isetp g _ _ _ _ _ => g
  | .sel g _ _ _ _ => g
  | .mov g _ _ => g
  | .movi g _ _ => g
  | .movu g _ _ => g
  | .plop3 g _ _ _ _ => g
  | .p2v g _ _ => g
  | .v2p g _ _ _ => g
  | .vote g _ _ _ => g
  | .pcnt g _ _ => g
  | .elect g _ => g
  | .shfl g _ _ _ _ => g
  | .bcast g _ _ _ => g
  | .redux g _ _ _ => g
  | .scan g _ _ _ _ => g
  | .match g _ _ _ => g
  | .cvtif g _ _ _ _ _ _ => g
  | .cvtfi g _ _ _ _ _ _ => g
  | .cvtff g _ _ _ _ _ => g
  | .cvtn g _ _ _ _ => g
  | .cvtw g _ _ _ _ => g
  | .cbdec g _ _ _ _ => g
  | .scalq g _ _ _ => g
  | .amax g _ _ _ _ _ => g
  | .fadd g _ _ _ _ => g
  | .fsub g _ _ _ _ => g
  | .fmul g _ _ _ _ => g
  | .ffma g _ _ _ _ _ => g
  | .fmin g _ _ _ => g
  | .fmax g _ _ _ => g
  | .fsetp g _ _ _ _ => g
  | .fclass g _ _ => g
  | .frnd g _ _ _ => g
  | .frcp g _ _ => g
  | .frsq g _ _ => g
  | .fsqrt g _ _ _ => g
  | .fdiv g _ _ _ _ => g
  | .fexpf g _ _ => g
  | .flogf g _ _ => g
  | .fsin g _ _ => g
  | .fcos g _ _ => g
  | .fscale g _ _ _ _ => g
  | .fexpo g _ _ => g
  | .fmant g _ _ => g
  | .hadd2 g _ _ _ _ => g
  | .hmul2 g _ _ _ _ => g
  | .hfma2 g _ _ _ _ _ => g
  | .hmnmx2 g _ _ _ _ _ => g
  | .fdot2 g _ _ _ _ _ => g
  | .dadd g _ _ _ _ => g
  | .dmul g _ _ _ _ => g
  | .dfma g _ _ _ _ _ => g
  | .ld g _ _ _ _ _ => g
  | .st g _ _ _ _ _ _ => g
  | .ldk g _ _ _ _ => g
  | .ldacq g _ _ _ _ _ _ => g
  | .strel g _ _ _ _ _ _ => g
  | .atom g _ _ _ _ _ => g
  | .atomc g _ _ _ _ _ => g
  | .red g _ _ _ _ => g
  | .fence g _ => g
  | .fencea g _ => g
  | .cwb g _ _ _ => g
  | .cinv g _ _ _ => g
  | .cpf g _ _ _ => g
  | .slcdr g _ => g
  | .cpy g _ _ _ _ _ _ => g
  | .cpyt g _ _ _ _ _ _ => g
  | .cpyx g _ _ _ _ _ _ => g
  | .cpyo g _ _ _ _ _ _ => g
  | .cseal g _ => g
  | .cwait g _ => g
  | .shopen g _ _ => g
  | .publish g _ _ _ => g
  | .shdrop g _ _ => g
  | .put g _ _ _ _ _ _ => g
  | .get g _ _ _ _ _ _ => g
  | .mcast g _ _ _ => g
  | .lreg g _ _ _ _ => g
  | .ldereg g _ => g
  | .send g _ _ _ _ => g
  | .rpost g _ _ _ _ _ => g
  | .rpoll g _ _ => g
  | .coll g _ => g
  | .skmrg g _ _ _ => g
  | .tarm g _ _ _ _ => g
  | .tadd g _ _ => g
  | .trd g _ _ => g
  | .tdisarm g _ _ => g
  | .mma g _ _ _ _ => g
  | .mmas g _ _ _ _ _ => g
  | .mmac g _ _ _ _ => g
  | .mzero g _ => g
  | .mrd g _ _ _ => g
  | .mwr g _ _ _ => g
  | .mld g _ _ => g
  | .mst g _ _ _ _ _ => g
  | .mrel g => g
  | .skins g _ _ _ _ _ => g
  | .skdel g _ _ _ _ _ => g
  | .skqry g _ _ _ _ => g
  | .skcard g _ _ _ => g
  | .skrank g _ _ _ _ => g
  | .skqtl g _ _ _ _ => g
  | .skhash g _ _ _ _ => g
  | .skfold g _ _ => g
  | .skclr g _ _ => g
  | .skstat g _ _ _ => g
  | .skinv g _ => g
  | _ => .always

/-- The opcode group of an instruction (R227); events have none and count as group 0. -/
def groupOf : Instr → Nat
  | .iadd _ _ _ _ _ => 1
  | .isub _ _ _ _ _ => 1
  | .imul _ _ _ _ => 1
  | .imulh _ _ _ _ _ => 1
  | .imad _ _ _ _ _ => 1
  | .imadw _ _ _ _ _ _ => 1
  | .iadd64 _ _ _ _ => 1
  | .isub64 _ _ _ _ => 1
  | .imin _ _ _ _ _ => 1
  | .imax _ _ _ _ _ => 1
  | .iabs _ _ _ _ => 1
  | .ineg _ _ _ _ => 1
  | .isat _ _ _ _ => 1
  | .idiv _ _ _ _ _ => 1
  | .irem _ _ _ _ _ => 1
  | .idot4 _ _ _ _ _ _ _ => 1
  | .idot2 _ _ _ _ _ _ _ => 1
  | .lea _ _ _ _ _ _ => 1
  | .and _ _ _ _ => 1
  | .or _ _ _ _ => 1
  | .xor _ _ _ _ => 1
  | .andn _ _ _ _ => 1
  | .not _ _ _ => 1
  | .lop3 _ _ _ _ _ => 1
  | .shl _ _ _ _ => 1
  | .shr _ _ _ _ => 1
  | .sar _ _ _ _ => 1
  | .rotl _ _ _ _ => 1
  | .funl _ _ _ _ _ => 1
  | .funr _ _ _ _ _ => 1
  | .popc _ _ _ => 1
  | .clz _ _ _ => 1
  | .ctz _ _ _ => 1
  | .brev _ _ _ => 1
  | .bfx _ _ _ _ _ => 1
  | .bfi _ _ _ _ _ => 1
  | .prmt _ _ _ _ _ => 1
  | .isetp _ _ _ _ _ _ => 1
  | .sel _ _ _ _ _ => 1
  | .mov _ _ _ => 1
  | .movi _ _ _ => 1
  | .movu _ _ _ => 1
  | .plop3 _ _ _ _ _ => 2
  | .p2v _ _ _ => 2
  | .v2p _ _ _ _ => 2
  | .vote _ _ _ _ => 2
  | .pcnt _ _ _ => 2
  | .elect _ _ => 2
  | .shfl _ _ _ _ _ => 2
  | .bcast _ _ _ _ => 2
  | .redux _ _ _ _ => 2
  | .scan _ _ _ _ _ => 2
  | .match _ _ _ _ => 2
  | .cvtif _ _ _ _ _ _ _ => 2
  | .cvtfi _ _ _ _ _ _ _ => 2
  | .cvtff _ _ _ _ _ _ => 2
  | .cvtn _ _ _ _ _ => 2
  | .cvtw _ _ _ _ _ => 2
  | .cbdec _ _ _ _ _ => 2
  | .scalq _ _ _ _ => 2
  | .amax _ _ _ _ _ _ => 2
  | .fadd _ _ _ _ _ => 3
  | .fsub _ _ _ _ _ => 3
  | .fmul _ _ _ _ _ => 3
  | .ffma _ _ _ _ _ _ => 3
  | .fmin _ _ _ _ => 3
  | .fmax _ _ _ _ => 3
  | .fsetp _ _ _ _ _ => 3
  | .fclass _ _ _ => 3
  | .frnd _ _ _ _ => 3
  | .frcp _ _ _ => 3
  | .frsq _ _ _ => 3
  | .fsqrt _ _ _ _ => 3
  | .fdiv _ _ _ _ _ => 3
  | .fexpf _ _ _ => 3
  | .flogf _ _ _ => 3
  | .fsin _ _ _ => 3
  | .fcos _ _ _ => 3
  | .fscale _ _ _ _ _ => 3
  | .fexpo _ _ _ => 3
  | .fmant _ _ _ => 3
  | .hadd2 _ _ _ _ _ => 3
  | .hmul2 _ _ _ _ _ => 3
  | .hfma2 _ _ _ _ _ _ => 3
  | .hmnmx2 _ _ _ _ _ _ => 3
  | .fdot2 _ _ _ _ _ _ => 3
  | .dadd _ _ _ _ _ => 3
  | .dmul _ _ _ _ _ => 3
  | .dfma _ _ _ _ _ _ => 3
  | .ld _ _ _ _ _ _ => 4
  | .st _ _ _ _ _ _ _ => 4
  | .ldk _ _ _ _ _ => 4
  | .ldacq _ _ _ _ _ _ _ => 4
  | .strel _ _ _ _ _ _ _ => 4
  | .atom _ _ _ _ _ _ => 4
  | .atomc _ _ _ _ _ _ => 4
  | .red _ _ _ _ _ => 4
  | .fence _ _ => 4
  | .fencea _ _ => 4
  | .cwb _ _ _ _ => 4
  | .cinv _ _ _ _ => 4
  | .cpf _ _ _ _ => 4
  | .slcdr _ _ => 4
  | .cpy _ _ _ _ _ _ _ => 5
  | .cpyt _ _ _ _ _ _ _ => 5
  | .cpyx _ _ _ _ _ _ _ => 5
  | .cpyo _ _ _ _ _ _ _ => 5
  | .cseal _ _ => 5
  | .cwait _ _ => 5
  | .shopen _ _ _ => 5
  | .publish _ _ _ _ => 5
  | .shdrop _ _ _ => 5
  | .put _ _ _ _ _ _ _ => 5
  | .get _ _ _ _ _ _ _ => 5
  | .mcast _ _ _ _ => 5
  | .lreg _ _ _ _ _ => 5
  | .ldereg _ _ => 5
  | .send _ _ _ _ _ => 5
  | .rpost _ _ _ _ _ _ => 5
  | .rpoll _ _ _ => 5
  | .coll _ _ => 5
  | .skmrg _ _ _ _ => 5
  | .tarm _ _ _ _ _ => 5
  | .tadd _ _ _ => 5
  | .trd _ _ _ => 5
  | .tdisarm _ _ _ => 5
  | .mma _ _ _ _ _ => 6
  | .mmas _ _ _ _ _ _ => 6
  | .mmac _ _ _ _ _ => 6
  | .mzero _ _ => 6
  | .mrd _ _ _ _ => 6
  | .mwr _ _ _ _ => 6
  | .mld _ _ _ => 6
  | .mst _ _ _ _ _ _ => 6
  | .mrel _ => 6
  | .skins _ _ _ _ _ _ => 7
  | .skdel _ _ _ _ _ _ => 7
  | .skqry _ _ _ _ _ => 7
  | .skcard _ _ _ _ => 7
  | .skrank _ _ _ _ _ => 7
  | .skqtl _ _ _ _ _ => 7
  | .skhash _ _ _ _ _ => 7
  | .skfold _ _ _ => 7
  | .skclr _ _ _ => 7
  | .skstat _ _ _ _ => 7
  | .skinv _ _ => 7
  | _ => 0

/-- The counters that an instruction raises at dispatch (Table 11-8); `cb` rises at a seal. -/
def countersOf : Instr → List Ctr
  | .ld _ _ _ _ _ _ => [.ld]
  | .st _ _ _ _ _ _ _ => [.st]
  | .ldk _ _ _ _ _ => [.ld]
  | .ldacq _ _ _ _ _ _ _ => [.ld]
  | .strel _ _ _ _ _ _ _ => [.st]
  | .atom _ _ _ _ _ _ => [.ld, .st]
  | .atomc _ _ _ _ _ _ => [.ld, .st]
  | .red _ _ _ _ _ => [.st]
  | .send _ _ _ _ _ => [.st]
  | .rpoll _ _ _ => [.ld]
  | .skmrg _ _ _ _ => [.sk]
  | .tadd _ _ _ => [.st]
  | .trd _ _ _ => [.ld]
  | .mma _ _ _ _ _ => [.tl]
  | .mmas _ _ _ _ _ _ => [.tl]
  | .mmac _ _ _ _ _ => [.tl]
  | .mzero _ _ => [.tl]
  | .mrd _ _ _ _ => [.tl]
  | .mwr _ _ _ _ => [.tl]
  | .mld _ _ _ => [.tl]
  | .mst _ _ _ _ _ _ => [.tl]
  | .skins _ _ _ _ _ _ => [.sk]
  | .skdel _ _ _ _ _ _ => [.sk]
  | .skqry _ _ _ _ _ => [.sk]
  | .skcard _ _ _ _ => [.sk]
  | .skrank _ _ _ _ _ => [.sk]
  | .skqtl _ _ _ _ _ => [.sk]
  | .skfold _ _ _ => [.sk]
  | .skclr _ _ _ => [.sk]
  | .skstat _ _ _ _ => [.sk]
  | .skinv _ _ => [.sk]
  | _ => []

/-- The tile an instruction names (R315). -/
def tileOf : Instr → Option Nat
  | .mma _ t _ _ _ => some t
  | .mmas _ t _ _ _ _ => some t
  | .mmac _ t _ _ _ => some t
  | .mzero _ t => some t
  | .mrd _ _ t _ => some t
  | .mwr _ t _ _ => some t
  | .mld _ t _ => some t
  | .mst _ t _ _ _ _ => some t
  | _ => none

/-- Whether an instruction dispatches in a system context only (R233). -/
def privileged : Instr → Bool
  | .tlbinv _ _ _ _ => true
  | .slcdr _ _ => true
  | .sread _ _ n => 32 ≤ n && n ≤ 40
  | .swrite _ n _ => 32 ≤ n && n ≤ 41
  | _ => false

/-- Groups that an engine class allows, and classes that a role allows (Table 11-2). Roles: 0 vector, 1 copy, 2
matrix (R39). -/
def classAllows (eng grp : Nat) : Bool :=
  grp ≤ 4 || (eng == 1 && grp == 5) || (eng == 2 && grp == 6) || (eng == 3 && grp == 7)
def roleAllows (role eng : Nat) : Bool :=
  eng == 0 || (eng == 1 && role == 1) || (eng == 2 && role == 2) || (eng == 3 && role == 0)

/-- Whether a run lies within v767, or within h31 in handler state, or is `vz` and no longer than a pair (R228,
R390). -/
def runLegal (hnd : Bool) (r : Run) : Bool :=
  r.1 + r.2 ≤ 768 || (hnd && 960 ≤ r.1 && r.1 + r.2 ≤ 992) || (r.1 == 1023 && r.2 ≤ 2)

/-- Whether a run lies within an allocation of G granules (R79). -/
def runBound (g : Nat) (r : Run) : Bool := r.1 ≥ 768 || r.1 + r.2 ≤ 32 * g

/-- The names of runs, `vz` left out. -/
def runNames (l : List Run) : List Nat := l.flatMap fun r => if r.1 = 1023 then [] else (List.range r.2).map (r.1 + ·)

/-- The predicates a guard reads. -/
def guardReads : Guard → List Nat
  | .always => []
  | .pred n _ => [n]

/-- The first dispatch check of R229 that an instruction fails, as its code: the class (check 2), then fields, tile
grant and slots (3), the allocation (4), privilege (5). Handler state decides on h0 to h31 and, with `TRET` and
`TINFO`, on their use (R255), and with `EXIT` and `LAUNCH` (R372). -/
def dispatchCheck (slot : Nat → Slot) (x : Warp) (hnd sys : Bool) (eng : Nat) (i : Instr) : Option Nat :=
  let runs := readRuns slot i ++ writeRuns slot i
  if !classAllows eng (groupOf i) then some 0x02
  else if !((tileOf i).all fun t => t < x.atl) || !slotsOk slot i || !runs.all (runLegal hnd) || !handlerOk then some 0x03
  else if !runs.all (runBound x.g) then some 0x04
  else if privileged i && !sys then some 0x06
  else none
where
  /-- The instructions that handler state forbids or requires. -/
  handlerOk : Bool :=
    match i with
    | .tret _ _ => hnd
    | .tinfo _ _ _ => hnd
    | .exit _ => !hnd
    | .launch _ _ _ => !hnd
    | _ => true

/-! ### Operand values -/

/-- What reading operand B of the ALU form can come to: the words of the register, window word or immediate, or a
failing window page, or a remote word still on its way. -/
inductive Opnd where
  | ok (v : VReg)
  | fail (code va : Nat)
  | absent (va : Nat)
  | wait
  deriving DecidableEq, Repr

namespace State

/-- A word of global memory read through the constant cache for a warp (R114). One of another package whose read has timed out
for the warp reads all ones (R416). -/
def cachedWord (s : State) (w : WarpId) (c ctx va : Nat) : (Word ⊕ Opnd) × State :=
  match s.xlate c ctx va .load with
  | (.fail k, s) => (.inr (.fail k va), s)
  | (.absent, s) => (.inr (.absent va), s)
  | (.ok e, s) =>
    match locOf e va with
    | .mem pa key cls =>
      if s.keyWaits key && (amFind (s.core c).constCache (cacheKey none pa key)).isNone then (.inr .wait, s)
      else let (v, s) := s.constWord c pa key cls; (.inl v, s)
    | .remote fid addr key =>
      match amFind (s.core c).constCache (cacheKey (some fid) addr key) with
      | some v => (.inl v, s)
      | none =>
        if ((s.warp? w).map Warp.lostWords).any fun l => l.contains (cacheKey (some fid) (addr / 128 * 128) key) then
          (.inl (BitVec.allOnes 32), s)
        else (.inr .wait, s.fetchRemote c fid addr key (some w))
    | _ => (.inr (.fail 0x16 va), s)

/-- `window` (R235): word j of window n of the warp's grid. A window base is a multiple of 4 (R44); the low two bits of one
that is not are not read (log 87). -/
def windowWord (s : State) (w : WarpId) (n j : Nat) : (Word ⊕ Opnd) × State :=
  match s.gridOf? w.team with
  | none => (.inl 0, s)
  | some (_, g) => s.cachedWord w (s.coreOf w) g.ctx ((g.wbase n / 4 * 4 + 4 * j) % 2 ^ 64)

end State

/-- Operand B of the ALU form (src_b of R235). -/
def evalB (s : State) (w : WarpId) (x : Warp) : SrcB → Opnd × State
  | .reg r => (.ok (x.reg r.field), s)
  | .imm v => (.ok (uniformReg (immWord v)), s)
  | .win n j =>
    match s.windowWord w n j with
    | (.inl v, s) => (.ok (uniformReg v), s)
    | (.inr o, s) => (o, s)

/-- Operand B of a 64-bit instruction, low and high words (R257, R397). -/
def evalB64 (s : State) (w : WarpId) (x : Warp) : SrcB64 → (Opnd × Opnd) × State
  | .pair p => ((.ok (x.reg p.field), .ok (x.reg (Warp.upper p.field))), s)
  | .imm v => ((.ok (uniformReg (loWord (immDWord v))), .ok (uniformReg (hiWord (immDWord v)))), s)
  | .win n j =>
    let (lo, s) := evalB s w x (.win n j)
    let (hi, s) := evalB s w x (.win n ((j + 1) % 2 ^ 17))
    ((lo, hi), s)

end Sys2Proof.Machine
end

