-- ==== Sys2Proof/Machine/Issue.lean ====
section
/-! DEFINITION. Dispatch and retirement (R63 to R72): the window, operand readiness, early completion, the commit of
the oldest instruction, branches at dispatch, the end of a clause and the exit of a warp. -/

namespace Sys2Proof.Machine

/-- What an instruction does when it executes as the oldest of its warp. -/
inductive Eff where
  /-- every active lane completed: it retires -/
  | done (s : State)
  /-- it waits, keeping what it has done so far -/
  | wait (s : State)
  /-- it reports a fault; `kept` says whether lanes committed, so that its counts stand (R387) -/
  | trap (s : State) (t : Trap) (kept : Bool)
  /-- it parks on serviceable absences, each a page with its lowest lane's address and whether it writes (R404) -/
  | park (s : State) (resume : Mask) (pages : List (Nat × Nat × Bool)) (kept : Bool)

/-- The meaning of an instruction beyond dispatch, for the lanes of its active mask. -/
abbrev Body := WarpId → WEntry → Mask → State → Eff

/-- What a control instruction does at dispatch (R66): where its lanes go, each target with its lanes; whether they
leave the frontier; the link it writes; whether it seals the open batch. -/
structure Branch where
  targets : List (Nat × Mask)
  link : Option Pair
  /-- the open batch is sealed (`EXIT`, R305) -/
  closes : Bool
  deriving DecidableEq, Repr

/-- How an instruction meets the window. -/
inductive Kind where
  /-- executes in the window and retires in order -/
  | normal
  /-- dispatches only when every older instruction has retired, and holds every younger one until it retires -/
  | serial
  deriving DecidableEq, Repr

/-- The instructions that dispatch and retire alone (R80, R95, R125, R243, R373). -/
def serialInstr : Instr → Bool
  | .yield _ => true
  | .wait _ _ _ => true
  | .reggrow _ _ _ _ => true
  | .regshrink _ _ => true
  | .tret _ _ => true
  | .swrite _ n _ => 32 ≤ n && n ≤ 40
  | _ => false

/-- Group 5 instructions not yet issued to the streamer, which a seal of the batch must follow (R292, R305). -/
def streaming (l : List WEntry) : Bool := l.any fun e => groupOf e.instr == 5

namespace State

/-- The format slots of a warp's grid. -/
def slots (s : State) (w : WarpId) : Nat → Slot := fun n =>
  match s.gridOf? w.team with
  | some g => g.2.slot n
  | none => Slot.ofBytes []

/-! ### Fetch -/

/-- A clause word of a warp at a virtual address: none where it cannot be fetched, or not yet (R117, R226). -/
def fetchWord (s : State) (w : WarpId) (va : Nat) : Option DWord × State :=
  let c := s.coreOf w
  match s.xlate c (s.ctxOf w.team) va .fetch with
  | (.ok e, s) =>
    match locOf e va with
    | .mem pa key cls =>
      if s.keyWaits key && (amFind (s.core c).codeCache (cacheKey none pa key)).isNone then (none, s)
      else let (x, s) := s.codeWord c pa key cls; (some x, s)
    | .remote fid addr key =>
      match amFind (s.core c).codeCache (cacheKey (some fid) addr key) with
      | some x => (some x, s)
      | none => (none, s.fetchRemote c fid addr key none)
    | _ => (none, s)
  | (_, s) => (none, s)

/-- A frontier entry at a header, with the PRIO and REJOIN of the header in memory (R53); one that cannot be read yet is
read before the warp selects an entry, and one that cannot be read at all counts as PRIO 0 until its selection reports it
(log 18). -/
def newEntry (s : State) (w : WarpId) (addr : Nat) (mask : Mask) : FEntry × State :=
  let (h, s) := s.fetchWord w addr
  ({ addr := addr, mask := mask, prio := field (h.getD 0).toNat 48 8, passes := 0, rejoin := (h.getD 0).getLsbD 56,
     known := h.isSome }, s)

/-- The headers of a warp's entries that have not been read yet, read where they can be (R53, R64). -/
def learn (s : State) (w : WarpId) : State :=
  match s.warp? w with
  | none => s
  | some x =>
    (x.fr.filter fun e => !e.known).foldl (fun (s : State) e =>
      match s.fetchWord w e.addr with
      | (none, s) => s
      | (some h, s) => s.modWarp w fun y => { y with fr := y.fr.map fun d =>
          if d.addr = e.addr then { d with prio := field h.toNat 48 8, rejoin := h.getLsbD 56, known := true } else d }) s

/-- Entries formed at targets and merged into the frontier (R55). In handler state every lane moves together, so
there is one entry. -/
def addEntries (s : State) (w : WarpId) (l : List (Nat × Mask)) : State :=
  l.foldl (fun (s : State) (t : Nat × Mask) =>
    if t.2 = 0 then s
    else
      let (e, s) := s.newEntry w t.1 t.2
      s.modWarp w fun x => { x with fr := mergeEntry x.fr e }) s

/-! ### Exit of a warp -/

/-- The target of a barrier's count (R245): EXP, or the warps of the team that have not exited. -/
def barTarget (s : State) (t : Nat) (b : Bar) : Nat :=
  if b.exp ≠ 0 then b.exp else ((s.warpsOf t).filter fun e => e.2.status != .exited).length

/-- A barrier's phase completed when its arrivals meet the target (R245). -/
def barTest (s : State) (t : Nat) (b : Bar) : Bar :=
  if b.arr = s.barTarget t b && b.arr != 0 then
    { exp := 0, arr := 0, phase := 1 - b.phase, sig := 0, lastSig := b.sig }
  else b

/-- The open batch of a warp sealed (R305): `cb` rises and the batch takes the next serial. -/
def sealBatch (s : State) (w : WarpId) : State :=
  s.modWarp w fun x =>
    if x.openBatch.isEmpty then x
    else
      let n := (x.serial + 1) % 2 ^ 32
      { x with openBatch := [], serial := n, batches := x.batches ++ [{ serial := n, ops := x.openBatch }],
               ctr := { x.ctr with cb := x.ctr.cb + 1 } }

/-- A warp whose frontier is empty and whose window has drained exits (R55, R241): its streams close, and the
barriers of its team that count live warps are tested again (R245). -/
def checkExit (s : State) (w : WarpId) : State :=
  match s.warp? w with
  | none => s
  | some x =>
    if x.fr.isEmpty && x.cursor.isNone && x.window.isEmpty && x.status == .running && x.halt.isNone then
      let s := (s.modWarp w fun x => { x with status := .exited, port := none }).closeExited w
      s.modTeam w.team fun t => { t with bars := t.bars.map fun b => if b.exp = 0 then s.barTest w.team b else b }
    else s

/-- The end of a clause: with no lane left, or past its last instruction, the remaining lanes form an entry at the
header that follows, and the port is free (R55, R63). -/
def endClause (s : State) (w : WarpId) : State :=
  match s.warp? w with
  | none => s
  | some x =>
    match x.cursor with
    | none => s
    | some c =>
      if c.live ≠ 0 && c.pc < c.last then s
      else
        let s := s.setWarp w { x with cursor := none, port := none }
        (s.addEntries w [(c.last, c.live)]).checkExit w

/-! ### Readiness -/

/-- Whether an entry gives a register its value: it writes it, unless it has completed with no active lane, which leaves
the register as it was (R72). -/
def givesReg (s : State) (w : WarpId) (n : Nat) (e : WEntry) : Bool :=
  (runNames (writeRuns (s.slots w) e.instr)).contains n &&
  match e.result with
  | .alu rs _ => rs.any fun r => r.1 == n
  | _ => true

/-- The same for a predicate. -/
def givesPred (n : Nat) (e : WEntry) : Bool :=
  (predWrites e.instr).contains n &&
  match e.result with
  | .alu _ ps => ps.any fun p => p.1 == n
  | _ => true

/-- Whether a value is ready at a place of the window: written by nothing older that has still to complete in some lane,
and not pending (R69, R73). -/
def regReady (s : State) (w : WarpId) (x : Warp) (older : List WEntry) (n : Nat) : Bool :=
  match older.reverse.find? (s.givesReg w n) with
  | none => (amFind x.pend n).isNone
  | some e =>
    match e.result with
    | .none => false
    | .alu _ _ => e.left == 0
    | .load => (x.loads.find? fun l => l.id == e.seq).all fun l => l.bound == l.need

/-- The same for a predicate. -/
def predReady (older : List WEntry) (n : Nat) : Bool :=
  match older.reverse.find? (givesPred n) with
  | none => true
  | some e =>
    match e.result with
    | .alu _ _ => e.left == 0
    | _ => false

/-- The registers of a warp as seen behind older window entries: their computed results over the retired state. -/
def viewOf (x : Warp) (older : List WEntry) : Warp :=
  older.foldl (fun v e =>
    match e.result with
    | .alu rs ps =>
      let v := rs.foldl (fun v r => v.setReg r.1 r.2) v
      ps.foldl (fun v p => { v with preds := amPut 0 v.preds p.1 p.2 }) v
    | .load =>
      match x.loads.find? (fun l => l.id == e.seq) with
      | some l => (l.dsts.zip l.vals).foldl (fun v r => v.setReg r.1 r.2) v
      | none => v
    | .none => v) x

/-- Whether an instruction's operands are ready behind older entries: its guard, its sources, and the old value of a
destination written under a partial mask (R69, R70, R72). -/
def opsReady (s : State) (w : WarpId) (x : Warp) (older : List WEntry) (i : Instr) (lanesOn : Mask) : Bool :=
  let guards := guardReads (guardOf i) ++ predReads i
  guards.all (predReady older) &&
  (runNames (readRuns (s.slots w) i)).all (s.regReady w x older) &&
  (let m := lanesOn &&& (viewOf x older).guardMask (guardOf i)
   m == allLanes || m == 0 || ((runNames (writeRuns (s.slots w) i)).all (s.regReady w x older) &&
     (predWrites i).all (predReady older)))

/-! ### Retirement -/

/-- The position of a window entry, as a fault sees it. -/
def posOf (e : WEntry) (m : Mask) : Pos :=
  { pc := e.pc, word := e.word, mask := m, hdr := false, frontier := e.frontier, cursor := some e.cursor }

/-- Registers written with their new contents as they stop being pending for an operation; a name that a younger write
or a release of the name has taken since is left alone (R81). -/
def commitRegs (x : Warp) (id : Nat) (l : List (Nat × VReg)) : Warp :=
  l.foldl (fun x r => if amFind x.pend r.1 = some id then x.setReg r.1 r.2 else x) x

/-- The counters of a warp once a load has bound: `ld` falls, unless it has fallen for it before (R73). -/
def lowerLd (l : LoadOp) (c : Counters) : Counters := if l.fallen then c else c.add .ld false

/-- The contents of a load's destinations as it retires: in the lanes it does not load, what the registers hold then
(R72). -/
def restVals (x : Warp) (l : LoadOp) : List VReg :=
  (l.dsts.zip l.vals).map fun (r : Nat × VReg) =>
    { r.2 with words := lanes.map fun i => if l.need.getLsbD i then r.2.at i else (x.reg r.1).at i }

/-- Whether a load has its data in every lane it needs. -/
def loadBound (l : LoadOp) : Bool := l.bound == l.need

/-- Whether a sketch query older than `id`, which is a load of the warp (R341), has still to bind. -/
def queryOpen (x : Warp) (id : Nat) : Bool :=
  x.skOps.any fun o => o.id < id && o.lanes.any fun l => l.act != .ins && l.act != .del && l.done < l.steps

/-- Whether a sketch operation has performed in every lane. -/
def skDone (o : SkOp) : Bool :=
  o.units ≥ o.total && !o.busy && o.lanes.all fun l => l.steps ≤ l.done

/-- What an instruction leaves behind as it retires, or as its completed lanes are committed (R71, R73, R387): its load
and its sketch operation count as retired and their destinations become pending; what has already bound is
committed. -/
def settle (x : Warp) (id : Nat) : Warp :=
  let mark := fun (x : Warp) (l : List (Nat × VReg)) =>
    { x with pend := l.foldl (fun p r => if r.1 = 1023 then p else amSet p r.1 id) x.pend }
  let x := match x.loads.find? (fun l => l.id == id) with
    | none => x
    | some l =>
      let x := mark x (l.dsts.zip l.vals)
      let l := { l with vals := restVals x l }
      if loadBound l then
        { commitRegs x id (l.dsts.zip l.vals) with
          loads := x.loads.filter fun (k : LoadOp) => k.id != id
          ctr := lowerLd l x.ctr }
      else { x with loads := x.loads.map fun (k : LoadOp) => if k.id = id then { l with retired := true } else k }
  match x.skOps.find? (fun o => o.id == id) with
  | none => x
  | some o =>
    let regs := o.dsts.zip o.vals ++ o.stDst.zip o.stVal
    let x := mark x regs
    { x with skOps := x.skOps.map fun (k : SkOp) => if k.id = id then { k with retired := true } else k }

/-- The oldest entry leaves the window as it retires (R70, R71). -/
def leave (s : State) (w : WarpId) : State :=
  s.modWarp w fun x => { x with window := x.window.drop 1, lastRetire := s.clock, stage := [], refused := [], lostWords := [] }

/-- The same, for an instruction with an active lane: one that counts leaves its operation behind (Table 11-8). -/
def retire (s : State) (w : WarpId) (e : WEntry) : State :=
  if (countersOf e.instr).isEmpty then s.leave w else (s.leave w).modWarp w fun x => settle x e.seq

/-- Counters lowered for an instruction that leaves no operation behind. -/
def uncount (s : State) (w : WarpId) (i : Instr) : State := s.modWarp w fun x => { x with ctr := x.ctr.lower (countersOf i) }

/-- Whether a destination of an entry still waits for an older load: the entry then completes in all of its lanes or in
none, since the lanes left over keep the old value (R71, R72). -/
def dstPending (s : State) (w : WarpId) (x : Warp) (e : WEntry) : Bool :=
  (runNames (writeRuns (s.slots w) e.instr)).any fun n => (amFind x.pend n).any fun k => k != e.seq

/-- Whether some lanes of an entry have left an operation behind. -/
def begun (s : State) (w : WarpId) (e : WEntry) : Bool := (s.warp? w).any fun x => unbound x e.seq

/-- The oldest entry executed by its body (R66, R70, R368). With no active lane it retires, and its counts fall
(R232, R400). -/
def runHead (s : State) (w : WarpId) (e : WEntry) (body : Body) : State :=
  match s.warp? w with
  | none => s
  | some x =>
    let m := e.mask &&& x.guardMask (guardOf e.instr)
    if m = 0 then (((s.uncount w e.instr).leave w).checkExit w)
    else
      let pop := fun (s : State) (kept : Bool) =>
        let s := if kept then s.modWarp w fun x => settle x e.seq else s.uncount w e.instr
        s.modWarp w fun x => { x with window := x.window.drop 1 }
      let whole := s.dstPending w x e
      match body w e m s with
      | .done s => (s.retire w e).checkExit w
      | .wait s' => if whole && s'.begun w e then s else s'
      | .trap s' t kept => if whole && kept then s else (pop s' kept).takeTrap w countersOf (posOf e m) t
      | .park s' r pages kept => if whole && kept then s else (pop s' kept).parkWarp w countersOf (posOf e m) r pages

/-- The oldest entry of a warp committed if it has been computed, or executed if its operands are ready (row
INSTRUCTION_RETIRE). -/
def retireHead (s : State) (w : WarpId) (bodyOf : Instr → Option Body) : State :=
  match s.warp? w with
  | none => s
  | some x =>
    match x.window with
    | [] => s
    | e :: _ =>
      match e.result with
      | .alu rs ps =>
        let x := rs.foldl (fun v r => v.setReg r.1 r.2) x
        let x := ps.foldl (fun v p => { v with preds := amPut 0 v.preds p.1 p.2 }) x
        (((s.setWarp w x).uncount w e.instr).leave w).checkExit w
      | .load => (s.retire w e).checkExit w
      | .none =>
        match bodyOf e.instr with
        | none => s
        | some b => if s.opsReady w x [] e.instr e.mask then s.runHead w e b else s

/-! ### Dispatch -/

/-- Whether the warp that acts can dispatch: it holds a port (R63), it has lanes inside a clause, and nothing has stopped
it. -/
def canDispatch (x : Warp) : Bool :=
  x.port.isSome && x.halt.isNone && x.park.isNone && !(x.window.any fun e => serialInstr e.instr) &&
    (x.status == .running || (x.status == .handler && !waitsBank x)) &&
    (x.cursor.any fun c => c.live != 0 && c.pc < c.last)

/-- The renamed registers that an instruction writes: `h` names are not renamed (R68, R83). -/
def renamed (s : State) (w : WarpId) (i : Instr) : Nat :=
  ((runNames (writeRuns (s.slots w) i)).filter fun n => n < 768).length

/-- The registers that an operation on a tile will write (R324). -/
def tileDsts (o : TileOp) : List Nat :=
  match o.instr with
  | .mrd _ d _ _ => runNames [(d.field, 16)]
  | _ => []

/-- The physical registers that retired loads, sketch queries and tile reads in flight still have to write, of names that meet
a condition (R73, R81). -/
def inFlight (x : Warp) (f : Nat → Nat → Bool) : Nat :=
  (x.loads.map fun l => if l.retired then (l.dsts.filter fun n => n < 768 && f l.id n).length else 0).foldl (· + ·) 0 +
  (x.skOps.map fun o => if o.retired then ((o.dsts ++ o.stDst).filter fun n => n < 768 && f o.id n).length else 0).foldl
    (· + ·) 0 +
  (x.tileOps.map fun o => ((tileDsts o).filter fun n => n < 768 && f o.id n).length).foldl (· + ·) 0

/-- Physical registers a warp holds beyond its names: destinations of unretired instructions, and operations in flight to
superseded names (R68, R81). -/
def headroomUsed (s : State) (w : WarpId) (x : Warp) : Nat :=
  (x.window.map fun e => s.renamed w e.instr).foldl (· + ·) 0 + inFlight x fun id n => amFind x.pend n != some id

/-- Whether window, headroom and counters have room for an instruction (R67, R68, R232): a seal must be able to raise `cb`,
beside the seals that have yet to retire (R305). -/
def roomFor (s : State) (w : WarpId) (x : Warp) (i : Instr) : Bool :=
  let closes := fun (i : Instr) => match i with
    | .cseal _ _ => true
    | _ => false
  x.window.length < Config.warpWindow &&
  ((s.warpsOn x.core).map fun e => e.2.window.length).foldl (· + ·) 0 < Config.coreWindow &&
  s.headroomUsed w x + s.renamed w i ≤ Config.headroom &&
  (x.window.map fun e => (predWrites e.instr).length).foldl (· + ·) 0 + (predWrites i).length ≤ 16 &&
  ((countersOf i).all fun k => x.ctr.get k < 255) &&
  (!closes i || (x.openBatch.isEmpty && !streaming x.window) ||
    x.ctr.cb + (x.window.filter fun e => closes e.instr).length < 255)

/-- An instruction put in the window: its entry, the position moved past it, its counters raised (R66, R67, R232). -/
def pushEntry (s : State) (w : WarpId) (x : Warp) (c : Cursor) (i : Instr) (r : WResult) : WEntry × State :=
  let e : WEntry := { seq := x.seq, instr := i, pc := c.pc, word := c.words.headD 0, mask := c.rmask, frontier := x.fr,
                      cursor := c, result := r }
  (e, s.setWarp w { x with
    seq := x.seq + 1
    window := x.window ++ [e]
    cursor := some { c with pc := c.pc + 8, rmask := c.live, words := c.words.drop 1 }
    ctr := (countersOf i).foldl (fun k n => k.add n true) x.ctr })

end State

/-- THE DISPATCH OF AN INSTRUCTION by the warp that acts. The checks of R229 come first; their fault is reported
when every older instruction has retired. With room in window and counters it dispatches; the oldest instruction
whose operands are ready executes at once. -/
def issue (k : Kind) (i : Instr) (body : Body) (s : State) : Host.Outcome State Fault Refusal :=
  match s.cur with
  | none => .refused .noWarp
  | some w =>
    match s.warp? w with
    | none => .refused .noWarp
    | some x =>
      match x.cursor with
      | none => .next s
      | some c =>
        if !State.canDispatch x then .next s
        else
          match dispatchCheck (s.slots w) x x.inHandler (s.isSys w.team) c.eng i with
          | some code =>
            if x.window.isEmpty then
              .next (s.takeTrap w countersOf
                { pc := c.pc, word := c.words.headD 0, mask := c.rmask, hdr := false, frontier := x.fr, cursor := some c }
                (Trap.warp code c.rmask))
            else .next s
          | none =>
            if !s.roomFor w x i || (k == .serial && !x.window.isEmpty) then .next s
            else
              let (e, s) := s.pushEntry w x c i .none
              let s := if x.window.isEmpty && s.opsReady w x [] i c.rmask then s.runHead w e body else s
              .next (s.endClause w)

/-- THE DISPATCH OF AN INSTRUCTION THAT MAY HAVE TO WAIT at dispatch, holding its port, once every older instruction has
retired (R243, R250): `gate` gives the state in which it waits, or lets it go on. With no active lane it does not wait. -/
def issueHeld (gate : WarpId → Warp → Mask → State → Option State) (i : Instr) (body : Body) (s : State) :
    Host.Outcome State Fault Refusal :=
  let go := issue .serial i body s
  match s.cur with
  | none => go
  | some w =>
    match s.warp? w with
    | none => go
    | some x =>
      match x.cursor with
      | none => go
      | some c =>
        if State.canDispatch x && x.window.isEmpty && s.roomFor w x i &&
            (dispatchCheck (s.slots w) x x.inHandler (s.isSys w.team) c.eng i).isNone then
          let m := c.rmask &&& x.guardMask (guardOf i)
          match if m = 0 then none else gate w x m s with
          | some s => .next s
          | none => go
        else go

/-- Whether a control instruction writes its link to handler registers, which only the oldest instruction of a warp does
(R83). -/
def linksHandler : Instr → Bool
  | .call _ d _ => 960 ≤ d.field && d.field < 992
  | .callx _ d _ => 960 ≤ d.field && d.field < 992
  | _ => false

/-- THE DISPATCH OF A CONTROL INSTRUCTION (R66): it waits until its guard and operands are ready, and takes effect at
dispatch. In handler state every lane moves with the lowest (R372). A fault is reported when every older
instruction has retired. -/
def issueBranch (i : Instr) (act : WarpId → Warp → Cursor → Mask → Except Trap Branch) (s : State) :
    Host.Outcome State Fault Refusal :=
  match s.cur with
  | none => .refused .noWarp
  | some w =>
    match s.warp? w with
    | none => .refused .noWarp
    | some x =>
      match x.cursor with
      | none => .next s
      | some c =>
        if !State.canDispatch x then .next s
        else
          let pos : Pos :=
            { pc := c.pc, word := c.words.headD 0, mask := c.rmask, hdr := false, frontier := x.fr, cursor := some c }
          match dispatchCheck (s.slots w) x x.inHandler (s.isSys w.team) c.eng i with
          | some code =>
            if x.window.isEmpty then .next (s.takeTrap w countersOf pos (Trap.warp code c.rmask)) else .next s
          | none =>
            if !s.roomFor w x i || !s.opsReady w x x.window i c.rmask || (linksHandler i && !x.window.isEmpty) then .next s
            else
              let v := State.viewOf x x.window
              let m0 := c.rmask &&& v.guardMask (guardOf i)
              let m := if x.inHandler then
                (match lowest c.rmask with | some l => if m0.getLsbD l then c.rmask else 0 | none => 0) else m0
              match act w v c m with
              | .error t =>
                if x.window.isEmpty then .next (s.takeTrap w countersOf { pos with mask := m } t) else .next s
              | .ok b =>
                if b.closes && (streaming x.window || (!x.openBatch.isEmpty && x.ctr.cb ≥ 255)) then .next s else
                let s := if b.closes then s.sealBatch w else s
                let x := (s.warp? w).getD x
                let link := match b.link with
                  | none => []
                  | some d =>
                    let y := v.writePair d.field m .uniform .uniform fun _ => BitVec.ofNat 64 c.last
                    if m = 0 then [] else (runNames [(d.field, 2)]).map fun n => (n, y.reg n)
                let (_, s) := s.pushEntry w x c i (.alu link [])
                let s := s.modWarp w fun x => { x with cursor := x.cursor.map fun d =>
                  { d with live := d.live &&& ~~~m, rmask := d.rmask &&& ~~~m } }
                let s := s.addEntries w b.targets
                let s := if x.window.isEmpty then s.retireHead w (fun _ => none) else s
                .next (s.endClause w)

/-- A fault found in decoding the word at the position (checks 1 to 3 of R229), reported when every older instruction
has retired. -/
def faultWord (code : Nat) (s : State) : Host.Outcome State Fault Refusal :=
  match s.cur with
  | none => .refused .noWarp
  | some w =>
    match s.warp? w with
    | none => .refused .noWarp
    | some x =>
      match x.cursor with
      | none => .next s
      | some c =>
        if !State.canDispatch x || !x.window.isEmpty then .next s
        else .next (s.takeTrap w countersOf
          { pc := c.pc, word := c.words.headD 0, mask := c.rmask, hdr := false, frontier := x.fr, cursor := some c }
          (Trap.warp code c.rmask))

end Sys2Proof.Machine
end

