-- ==== Sys2Proof/Machine/Bodies.lean ====
section
/-! DEFINITION. The bodies that instructions of one shape share: lane by lane on 32-bit and 64-bit operands, and on
predicates (R234, R237, R257). -/

namespace Sys2Proof.Machine

/-- The effect of an operand that could not be read: the fault or the park of a constant window's page, for every
active lane, or a wait for a remote word (R114, R386, R403). -/
def opndEff (s : State) (w : WarpId) (m : Mask) : Opnd → Eff
  | .ok _ => .wait s
  | .wait => .wait s
  | .fail code va => .trap s (Trap.at code m va) false
  | .absent va =>
    if ((s.warp? w).map fun x => x.refused.contains (State.pageOf va)).getD false then .trap s (Trap.at 0x10 m va) false
    else .park s m [(State.pageOf va, va, false)] false

/-- A register result of the lanes of a mask, which the instruction retires with. -/
def putReg (s : State) (w : WarpId) (d : Nat) (m : Mask) (tag : Tag) (f : Nat → Word) : Eff :=
  .done (s.modWarp w fun x => x.writeReg d m tag f)

/-- A 64-bit register result. -/
def putPair (s : State) (w : WarpId) (d : Nat) (m : Mask) (tag : Tag) (f : Nat → DWord) : Eff :=
  .done (s.modWarp w fun x => x.writePair d m tag tag f)

/-- A predicate result. -/
def putPred (s : State) (w : WarpId) (d : Nat) (m : Mask) (f : Nat → Bool) : Eff :=
  .done (s.modWarp w fun x => x.writePred d m f)

/-- A body that reads the acting warp. -/
def withWarp (f : Warp → WarpId → WEntry → Mask → State → Eff) : Body := fun w e m s =>
  match s.warp? w with
  | none => .done s
  | some x => f x w e m s

/-- The word of a register in the lowest active lane (R237). -/
def once (x : Warp) (r : Reg) (m : Mask) : Word := x.rd r ((lowest m).getD 0)

/-- One register source. -/
def body1 (d a : Reg) (f : Word → Word) : Body := withWarp fun x w _ m s =>
  let va := x.reg a.field
  putReg s w d.field m (tagAll [va]) fun i => f (va.at i)

/-- A register and operand B, with a tag rule. -/
def body2 (d a : Reg) (b : SrcB) (tag : VReg → VReg → Tag) (f : Word → Word → Word) : Body := withWarp fun x w _ m s =>
  match evalB s w x b with
  | (.ok vb, s) =>
    let va := x.reg a.field
    putReg s w d.field m (tag va vb) fun i => f (va.at i) (vb.at i)
  | (o, s) => opndEff s w m o

/-- The ordinary tag rule of two sources. -/
def tag2 (a b : VReg) : Tag := tagAll [a, b]

/-- Three register sources. -/
def body3 (d a b c : Reg) (f : Word → Word → Word → Word) : Body := withWarp fun x w _ m s =>
  let va := x.reg a.field
  let vb := x.reg b.field
  let vc := x.reg c.field
  putReg s w d.field m (tagAll [va, vb, vc]) fun i => f (va.at i) (vb.at i) (vc.at i)

/-- The words of a pair operand. -/
def pairRegs (x : Warp) (n : Nat) : List VReg := [x.reg n, x.reg (Warp.upper n)]

/-- A pair and a 64-bit operand B. -/
def body64 (d a : Pair) (b : SrcB64) (f : DWord → DWord → DWord) : Body := withWarp fun x w _ m s =>
  match evalB64 s w x b with
  | ((.ok lo, .ok hi), s) =>
    putPair s w d.field m (tagAll (pairRegs x a.field ++ [lo, hi])) fun i => f (x.rd64 a i) (joinWords (lo.at i) (hi.at i))
  | ((.ok _, o), s) => opndEff s w m o
  | ((o, _), s) => opndEff s w m o

/-- A conversion between formats of 32 or 64 bits: an odd-sized source is read as its low word. -/
def bodyCvt (d a : Reg) (d64 s64 : Bool) (f : DWord → DWord) : Body := withWarp fun x w _ m s =>
  let src := if s64 then pairRegs x a.field else [x.reg a.field]
  let v := fun i => f (if s64 then x.rd64n a.field i else (x.rd a i).setWidth 64)
  if d64 then putPair s w d.field m (tagAll src) v
  else putReg s w d.field m (tagAll src) fun i => loWord (v i)

/-- A comparison of a register with operand B into a predicate. -/
def bodyCmp (pd : Nat) (a : Reg) (b : SrcB) (f : Word → Word → Bool) : Body := withWarp fun x w _ m s =>
  match evalB s w x b with
  | (.ok vb, s) => putPred s w pd m fun i => f (x.rd a i) (vb.at i)
  | (o, s) => opndEff s w m o

end Sys2Proof.Machine
end

