-- ==== Sys2Proof/Machine/Order.lean ====
section
/-! DEFINITION. The order that instructions keep: what a release waits for and does (R162), what an acquire does (R163),
fences (R165), and bytes that an instruction reads through its context's translation at their homes. -/

namespace Sys2Proof.Machine

/-- The rank of a scope: wider scopes count more (R157). -/
def scopeRank : Scope → Nat
  | .w => 0
  | .t => 1
  | .c => 2
  | .p => 3
  | .s => 4

/-- Whether a scope reaches beyond the package. -/
def podWide (sc : Scope) : Bool := scopeRank sc ≥ 3

/-- A warp's accumulated signature for a scope (R166). -/
def Sigs.get (g : Sigs) : Scope → Sig
  | .w => 0
  | .t => g.t
  | .c => g.c
  | .p => g.p
  | .s => g.s

/-- The signatures of a scope and of the narrower ones cleared. -/
def Sigs.clear (g : Sigs) (sc : Scope) : Sigs :=
  { t := if scopeRank sc ≥ 1 then 0 else g.t
    c := if scopeRank sc ≥ 2 then 0 else g.c
    p := if scopeRank sc ≥ 3 then 0 else g.p
    s := if scopeRank sc ≥ 4 then 0 else g.s }

/-- A signature ORed into all four. -/
def Sigs.join (g : Sigs) (x : Sig) : Sigs := { t := g.t ||| x, c := g.c ||| x, p := g.p ||| x, s := g.s ||| x }

/-- What reading bytes comes to. -/
inductive Got where
  | bytes (l : List Byte)
  | wait
  | fail (code va : Nat)
  | absent (va : Nat)
  deriving DecidableEq, Repr

/-- Whether a tile operation reads or writes memory, which a release waits for (R329). -/
def tileMem : Instr → Bool
  | .mma _ _ _ _ _ => true
  | .mmas _ _ _ _ _ _ => true
  | .mmac _ _ _ _ _ => true
  | .mld _ _ _ => true
  | .mst _ _ _ _ _ _ => true
  | _ => false

namespace State

/-- Whether a tile operation of a warp older than `id` reads scratch, which is a load of the warp (R328). -/
def tileReads (x : Warp) (id : Nat) : Bool :=
  x.tileOps.any fun o => o.id < id && match o.instr with | .mst _ _ _ _ _ _ => false | i => tileMem i

/-- A line's bits set in all four signatures of a warp that writes it (R166). -/
def noteLine (s : State) (w : WarpId) (line : Nat) : State := s.modWarp w fun x => { x with sigs := x.sigs.join (sigOf line) }

/-- The lines of a write of `n` bytes at a place noted. -/
def noteWrite (s : State) (w : WarpId) (l : Loc) (n : Nat) : State :=
  match l with
  | .mem pa _ _ => (List.range ((pa + n - 1) / 128 - pa / 128 + 1)).foldl (fun s k =>
      s.noteLine w (lineName s.fab.fid (pa + 128 * k))) s
  | .remote fid a _ => (List.range ((a + n - 1) / 128 - a / 128 + 1)).foldl (fun s k =>
      s.noteLine w (lineName fid (a + 128 * k))) s
  | _ => s

/-- Whether an engine operation counts as performed for a release of its warp (R169, R343): it has landed, or its writes to
other packages, or to the switches, have all left the core. -/
def copyDone (c : CopyOp) : Bool :=
  c.stage == .landed || (c.stage == .moved &&
    match c.kind with
    | .copy => false
    | .get => false
    | .put => true
    | .mcast _ _ _ => true
    | .coll _ => true
    | .send _ _ _ => true)

/-- Whether every access of a warp older than `id` has performed with respect to a scope (steps 1 to 3 of R162): loads
and returned values bound, stores performed, tile operations finished, sketch operations performed, engine writes
landed; a write to another package once it has left the core, and at pod and system scope once it has been acknowledged
(R343); and no dirty sector of the core held by a snapshot (R364). -/
def olderDone (s : State) (w : WarpId) (x : Warp) (id : Nat) (sc : Scope) : Bool :=
  (x.loads.all fun l => l.id ≥ id || l.bound == l.need) &&
  (x.stores.all fun t => t.id ≥ id || t.todo == 0) &&
  (x.tileOps.all fun t => t.id ≥ id || !tileMem t.instr) &&
  (x.skOps.all fun t => t.id ≥ id) &&
  (x.copies.all fun c => c.id ≥ id || copyDone c) &&
  (sc == .w || !s.flushHeld x.core) &&
  (!podWide sc || s.fab.reqs.all fun r => !(countedWrite r.kind &&
    match r.owner with
    | .store v k => v == w && k < id
    | .copy v k => v == w && k < id
    | _ => false))

/-- What a release does once its conditions hold (steps 4 and 5 of R162): the core's dirty sectors reach their homes,
and the signature of the scope is taken, with the narrower ones cleared. At warp scope it does neither. -/
def release (s : State) (w : WarpId) (sc : Scope) : Sig × State :=
  match s.warp? w with
  | none => (0, s)
  | some x =>
    let s := if sc = .w then s else s.l1Flush x.core
    (x.sigs.get sc, s.setWarp w { x with sigs := x.sigs.clear sc })

/-- What an acquire does with the signature it received (R163, R166). -/
def acquire (s : State) (w : WarpId) (g : Sig) : State :=
  (s.modWarp w fun x => { x with sigs := x.sigs.join g }).l1InvalidateSig (s.coreOf w) g

/-- What `FENCE` does beyond its conditions (R165): at warp scope nothing. -/
def fence (s : State) (w : WarpId) (sc : Scope) : State :=
  if sc = .w then s
  else
    let c := s.coreOf w
    ((s.l1Flush c).l1InvalidateAll c).modWarp w fun x => { x with sigs := x.sigs.clear sc }

/-! ### Bytes an instruction reads at their homes -/

/-- A read of remote bytes for an instruction in a warp's window, sent unless it is on its way. -/
def askRemote (s : State) (w : WarpId) (id fid addr key n : Nat) : State :=
  if s.fab.reqs.any fun r => r.owner == .fetch w id && r.fid == fid && r.va == addr then s
  else
    let p := { s.packetTo .readReq fid with score := s.coreOf w, addr := addr, key := key, len := n }
    (s.sendReq p { bareReq (.fetch w id) with core := s.coreOf w, va := addr } none).getD s

/-- Remote bytes that have arrived for an instruction. -/
def arrived? (s : State) (w : WarpId) (id fid addr : Nat) : Option (List Byte) :=
  (s.fab.inbox.find? fun p => p.tag == wkey w && p.ofcnt == id && p.sfid == fid && p.addr == addr).map fun p => p.data.map (·.2)

/-- What has arrived for an instruction, forgotten as it retires. -/
def inboxDrop (s : State) (w : WarpId) (id : Nat) : State :=
  s.setFab { s.fab with inbox := s.fab.inbox.filter fun p => !(p.tag == wkey w && p.ofcnt == id) }

/-- `n` bytes of the context's memory read as loads at their homes for an instruction of a warp, once the warp's older stores
have performed (R74, R160): the first failing page in address order decides. -/
def readVa (s : State) (w : WarpId) (id va n : Nat) : Got × State :=
  let c := s.coreOf w
  if (s.warp? w).any fun x => x.stores.any fun o => o.id < id && o.todo != 0 then (.wait, s) else
  (lineCuts (n / 128 + 2) va n).foldl (fun (acc : Got × State) (k : Nat × Nat × Nat) =>
    match acc.1 with
    | .bytes l =>
      let a := k.1 * 128 + k.2.1
      match acc.2.xlate c (acc.2.ctxOf w.team) a .load with
      | (.fail code, s) => (.fail code a, s)
      | (.absent, s) => (.absent a, s)
      | (.ok e, s) =>
        match locOf e a with
        | .mem pa key cls =>
          if s.keyWaits key then (.wait, s)
          else let (bs, s) := s.coreHomeRead c pa key cls k.2.2; (.bytes (l ++ bs), s)
        | .remote fid addr key =>
          match s.arrived? w id fid addr with
          | some bs => (.bytes (l ++ bs), s)
          | none => (.wait, s.askRemote w id fid addr key k.2.2)
        | _ => (.fail 0x16 a, s)
    | o => (o, acc.2)) (.bytes [], s)

end State

/-- The effect of bytes that could not be read, for the lanes of a mask. -/
def gotEff (s : State) (w : WarpId) (m : Mask) : Got → Eff
  | .bytes _ => .wait s
  | .wait => .wait s
  | .fail code va => .trap s (Trap.at code m va) false
  | .absent va =>
    if ((s.warp? w).map fun x => x.refused.contains (State.pageOf va)).getD false then .trap s (Trap.at 0x10 m va) false
    else .park s m [(State.pageOf va, va, false)] false

end Sys2Proof.Machine
end

