-- ==== Sys2Proof/Machine/Launch.lean ====
section
/-! DEFINITION. Launching from a program (R45 to R47, R58, R252, R381): device rings (R84, R87) and handles. -/

namespace Sys2Proof.Machine

namespace State

/-- The arrival number of the `n`th record of a partition (R88): records of one cycle are numbered device rings first, then
by queue, then in the order in which they enter. -/
def arrivalNo (s : State) (host : Bool) (q n : Nat) : Nat := ((s.clock * 2 + bit host) * 64 + q) * 2 ^ 64 + n

/-- A record entered in the device ring of a queue (R87); none while the ring is full or the queue is not enabled
(Table 5-2). -/
def enqueueDev (s : State) (q : Nat) (r : DevRec) : Option State :=
  let x := s.queue q
  if !x.en || x.dev.length ≥ 256 then none
  else
    let n := (s.part x.part).arrival
    let s := s.devWrite ((s.part x.part).drbase + 131072 * q + 512 * (x.devCount % 256)) r.record
    let s := s.modPart x.part fun p => { p with arrival := n + 1 }
    some (s.setQueue q { x with dev := x.dev ++ [{ r with arrival := s.arrivalNo false q n }], devCount := x.devCount + 1 })

/-- Whether a grid that a handle names is running or on its way (R253). -/
def handleLive (s : State) (ctx h : Nat) : Bool :=
  h != 0 && ((s.grids.any fun g => g.2.ctx == ctx && g.2.handle == h && !g.2.retired) ||
    s.queues.any fun q => q.2.dev.any fun r => r.ctx == ctx && r.handle == h)

/-- The checks that `LAUNCH` makes of a record's HDR (R38, R219, R381). -/
def hdrOk (h : Nat) : Bool :=
  1 ≤ field h 0 16 && field h 0 16 ≤ Config.recordVersion && field h 48 8 ≤ Config.functionTables &&
  field h 17 15 == 0 && field h 43 5 == 0 && field h 56 8 == 0

/-- The fabric identities that a process-group table names; none where it cannot be read (R56, R58). -/
def pgMembers (s : State) (w : WarpId) (id pgt : Nat) : Option (List Nat) × Bool × State :=
  match s.readVa w id pgt 32 with
  | (.bytes h, s) =>
    let n := bytesNat h 4 4
    if n = 0 || n > 8192 then (none, false, s)
    else
      match s.readVa w id (pgt + 32) (32 * n) with
      | (.bytes l, s) => (some ((List.range n).map fun r => bytesNat l (32 * r) 2 % 8192), false, s)
      | (.wait, s) => (none, true, s)
      | (_, s) => (none, false, s)
  | (.wait, s) => (none, true, s)
  | (_, s) => (none, false, s)

/-- One lane's launch of a record: into the device ring of the root grid's queue here, and to that queue index on every
other member package (R45, R58). None while it waits. -/
def launchLane (s : State) (w : WarpId) (id recAddr : Nat) (gi : Nat) (g : Grid) : Option (Nat × State) × State :=
  match s.readVa w id recAddr 512 with
  | (.bytes l, s) =>
    let h := (s.ctx g.ctx).nextHandle
    let key := g.ctx * 2 ^ 64 + h
    let r : DevRec :=
      { record := l, arrival := 0, recAddr := recAddr, ctx := g.ctx, depth := g.depth + 1, parent := some gi, handle := h,
        launcher := s.fab.fid, launchKey := key, isHost := false, prio7 := false, step := 0 }
    let pgt := bytesNat l 0x050 8
    let (mem, waiting, s) := if pgt = 0 then (none, false, s) else s.pgMembers w id pgt
    if waiting then (none, s)
    else
      match s.enqueueDev g.queue r with
      | none => (none, s)
      | some s' =>
        let others := (mem.getD []).filter fun f => f != s'.fab.fid
        let s' := others.foldl (fun s f => s.sendFree { s.packetTo .launch f with
          tag := g.queue, addr := recAddr, ctx := g.ctx, opnd := key, opnd2 := g.depth + 1, len := 512
          data := l.mapIdx fun k b => (k, b) }) s'
        (some (h, s'.modCtx g.ctx fun z => { z with nextHandle := h + 1 }), s)
  | (_, s) => (none, s)

end State

end Sys2Proof.Machine
end

