-- ==== Sys2Proof/Machine/Start.lean ====
section
/-! DEFINITION. Warps, teams and grids as they come into being (R34, R40, R50, R53, R105, R166, R232, R244, R425). -/

namespace Sys2Proof.Machine

/-- A warp at its start: registers zero and uniform, predicates clear, counters, signatures and acknowledgement
counters zero, tiles at 0 (log 5), and a frontier of the kernel's entry with all 32 lanes (R53, R166, R425). -/
def Warp.start (role core slot g atl now : Nat) (entry : FEntry) : Warp :=
  { role := role, core := core, slot := slot, status := .running, g := g, atl := atl, fr := [entry], cursor := none,
    port := none, fair := 0, fairAt := none, readySince := none, regs := [], preds := [], hregs := [], pend := [], window := [], seq := 1,
    stage := [], loads := [], stores := [], tileOps := [], skOps := [], copies := [], openBatch := [], batches := [],
    serial := 0, ctr := { ld := 0, st := 0, cb := 0, tl := 0, sk := 0 }, sigs := { t := 0, c := 0, p := 0, s := 0 },
    fpend := [0, 0, 0, 0], streams := [], msgCounts := [], latch := none, handler := none, park := none, refused := [],
    halt := none, lawLost := none, lawDue := [], lastRetire := now, tiles := [] }

/-- A barrier at team start (R244). -/
def Bar.start : Bar := { exp := 0, arr := 0, phase := 0, sig := 0, lastSig := 0 }
/-- A ring stage at team start (R50). -/
def Stage.start : Stage := { full := false, phase := 0, rcnt := 0, sig := 0, waiters := [] }

/-- A team at its first placement: barriers, rings, scratch table, signature store and status at their start values
(R50, R105, R168, R244, R248). -/
def Team.start (grid idx cluster lcluster nwarps thnd wdlog : Nat) (g : Grid) : Team :=
  { grid := grid, idx := idx, status := .placed, cluster := cluster, lcluster := lcluster, nwarps := nwarps,
    bars := List.replicate 16 Bar.start
    rings := (List.range 8).map fun n => List.replicate (g.nstg n) Stage.start
    stt := [], scrSig := SigStore.empty, fstat := 0, pqdl := g.pqdl, deadline := none, tdl := 0, decisions := 0,
    rslots := [], forced := false, halted := none, savePhase := 0, saveWaited := false, blockOff := 0, blockLen := 0, thnd := thnd,
    wdlog := wdlog }

/-- A grid of a record that arrives (R36, R37, R88). -/
def Grid.start (ctx queue part arrival handle depth : Nat) (parent : Option Nat) (recAddr : Nat) (record : List Byte) : Grid :=
  { ctx := ctx, queue := queue, part := part, arrival := arrival, handle := handle, depth := depth, parent := parent,
    recAddr := recAddr, record := record, rank := 0, nrank := 1, members := [], cls := bytesNat record 0 8 / 2 ^ 40 % 8, decisions := 0, launcher := 0, launchKey := 0, isHost := false,
    started := false, retired := false, rejected := false, placed := 0, exitedTeams := 0, chs := [], chsBytes := 0,
    chipSig := SigStore.empty, step := 0, sent := [], reports := [], reported := false }

end Sys2Proof.Machine
end

