-- ==== Sys2Proof/Machine/Control.lean ====
section
/-! DEFINITION. Group 0, control and synchronization (R238 to R256). -/

namespace Sys2Proof.Machine

/-! ### Branches (R239 to R241) -/

/-- The lanes of a mask grouped by the header that a pair names, in ascending lane order; in handler state every lane
goes where the lowest does (R372). A target that is not a multiple of 8 is an alignment fault of the whole mask. -/
def branchTo (v : Warp) (a : Pair) (m : Mask) : Except Trap (List (Nat × Mask)) :=
  let at' := fun i => (v.rd64 a (if v.inHandler then (lowest m).getD 0 else i)).toNat
  match (laneList m).find? fun i => at' i % 8 != 0 with
  | some i => .error { Trap.at 0x13 m (at' i) with lane := i }
  | none => .ok (((laneList m).map at').dedup.map fun t => (t, maskOf fun i => m.getLsbD i && at' i == t))

/-- The header at a control-form offset from an instruction (R30). -/
def branchRel (pc : Nat) (off : BitVec 20) : Nat := (BitVec.ofNat 64 pc + (off.signExtend 64 <<< 3)).toNat

/-- `NOP` (R238: no effect). -/
def bodyNop : Body :=
  fun _ _ _ s => .done s
/-- `NOP` dispatched by the warp that acts. -/
def execNop (g : Guard) (s : State) : Host.Outcome State Fault Refusal :=
  issue .normal (.nop g) bodyNop s

/-- `BRA` (R239). -/
def actBra (off : BitVec 20) (_w : WarpId) (_v : Warp) (c : Cursor) (m : Mask) : Except Trap Branch :=
  .ok { targets := [(branchRel c.pc off, m)], link := none, closes := false }
/-- `BRA` dispatched by the warp that acts. -/
def execBra (g : Guard) (off : BitVec 20) (s : State) : Host.Outcome State Fault Refusal :=
  issueBranch (.bra g off) (actBra off) s

/-- `BRX` (R239). -/
def actBrx (a : Pair) (_w : WarpId) (v : Warp) (_c : Cursor) (m : Mask) : Except Trap Branch :=
  (branchTo v a m).map fun t => { targets := t, link := none, closes := false }
/-- `BRX` dispatched by the warp that acts. -/
def execBrx (g : Guard) (a : Pair) (s : State) : Host.Outcome State Fault Refusal :=
  issueBranch (.brx g a) (actBrx a) s

/-- `CALL` (R240: the link is the header that follows the clause). -/
def actCall (d : Pair) (off : BitVec 20) (_w : WarpId) (_v : Warp) (c : Cursor) (m : Mask) : Except Trap Branch :=
  .ok { targets := [(branchRel c.pc off, m)], link := some d, closes := false }
/-- `CALL` dispatched by the warp that acts. -/
def execCall (g : Guard) (d : Pair) (off : BitVec 20) (s : State) : Host.Outcome State Fault Refusal :=
  issueBranch (.call g d off) (actCall d off) s

/-- `CALLX` (R240: A is read before D is written). -/
def actCallx (d : Pair) (a : Pair) (_w : WarpId) (v : Warp) (_c : Cursor) (m : Mask) : Except Trap Branch :=
  (branchTo v a m).map fun t => { targets := t, link := some d, closes := false }
/-- `CALLX` dispatched by the warp that acts. -/
def execCallx (g : Guard) (d a : Pair) (s : State) : Host.Outcome State Fault Refusal :=
  issueBranch (.callx g d a) (actCallx d a) s

/-- `RET` (R239: the effect of `BRX`). -/
def actRet (a : Pair) (_w : WarpId) (v : Warp) (_c : Cursor) (m : Mask) : Except Trap Branch :=
  (branchTo v a m).map fun t => { targets := t, link := none, closes := false }
/-- `RET` dispatched by the warp that acts. -/
def execRet (g : Guard) (a : Pair) (s : State) : Host.Outcome State Fault Refusal :=
  issueBranch (.ret g a) (actRet a) s

/-- `EXIT` (R241, R305: the lanes leave the frontier, and the open batch is sealed). -/
def actExit (_w : WarpId) (_v : Warp) (_c : Cursor) (m : Mask) : Except Trap Branch :=
  .ok { targets := [], link := none, closes := m != 0 }
/-- `EXIT` dispatched by the warp that acts. -/
def execExit (g : Guard) (s : State) : Host.Outcome State Fault Refusal :=
  issueBranch (.exit g) actExit s

/-! ### Safe points and waits -/

/-- `YIELD` (R95, R242, R372). -/
def bodyYield : Body :=
  withWarp fun x w _ _ s =>
  if (s.ctx (s.ctxOf w.team)).preq && !x.inHandler then
    .done (s.modWarp w fun x => { x with status := .yielded, port := none, wdHeld := some 0 })
  else .done s
/-- `YIELD` dispatched by the warp that acts. -/
def execYield (g : Guard) (s : State) : Host.Outcome State Fault Refusal :=
  issue .serial (.yield g) bodyYield s

/-- Whether the counter that a `WAIT` names lets it pass, tested as a header wait field is: 63 always passes (R64, R243). -/
def waitPasses (x : Warp) (c : Ctr) (n : Nat) : Bool := n == 63 || x.ctr.get c ≤ n

/-- `WAIT` (R243). -/
def bodyWait (c : Ctr) (n : Nat) : Body :=
  withWarp fun x _ _ _ s => if waitPasses x c n then .done s else .wait s
/-- `WAIT` dispatched by the warp that acts: it holds its port until the counter has fallen. -/
def execWait (g : Guard) (c : Ctr) (n : Nat) (s : State) : Host.Outcome State Fault Refusal :=
  issueHeld (fun _ x _ s => if waitPasses x c n then none else some s) (.wait g c n) (bodyWait c n) s

/-! ### Team barriers (R244, R245, R168) -/

namespace State

/-- A barrier of a team. -/
def bar (s : State) (t b : Nat) : Bar := ((s.team? t).bind fun tm => tm.bars[b]?).getD Bar.start

/-- A warp's arrival at a barrier with a count: EXP latched by the first, ARR raised, the signature joined, and the phase
completed when its target is met. -/
def arrive (s : State) (t b count : Nat) (g : Sig) : State :=
  let x := s.bar t b
  let x := { x with exp := if x.arr = 0 then count else x.exp, arr := x.arr + 1, sig := x.sig ||| g }
  s.modTeam t fun tm => { tm with bars := tm.bars.set b (s.barTest t x) }

end State

/-- `BARA` (R245). -/
def bodyBara (d : Reg) (cnt : Reg) (b : Nat) : Body :=
  withWarp fun x w e m s =>
  let count := (once x cnt m).toNat
  if count > 64 then .trap s (Trap.warp 0x03 m) false
  else if !s.olderDone w x e.seq .t then .wait s
  else
    let ph := (s.bar w.team b).phase
    let (g, s) := s.release w .t
    putReg (s.arrive w.team b count g) w d.field m .uniform fun _ => BitVec.ofNat 32 ph
/-- `BARA` dispatched by the warp that acts. -/
def execBara (g : Guard) (d cnt : Reg) (b : Nat) (s : State) : Host.Outcome State Fault Refusal :=
  issue .normal (.bara g d cnt b) (bodyBara d cnt b) s

/-- `BARW` (R245: the end of the wait is an acquire); it samples PHASE whenever it is tried (log 100). -/
def bodyBarw (a : Reg) (b : Nat) : Body :=
  withWarp fun x w _ m s =>
  if (s.bar w.team b).phase = (once x a m).toNat % 2 then .wait s
  else .done (s.acquire w (s.bar w.team b).lastSig)
/-- `BARW` dispatched by the warp that acts. -/
def execBarw (g : Guard) (a : Reg) (b : Nat) (s : State) : Host.Outcome State Fault Refusal :=
  issue .normal (.barw g a b) (bodyBarw a b) s

/-- `BARS` (R245: an arrival, then a wait for the phase it arrived in). The wait samples PHASE whenever the instruction is tried,
and takes the signature of the phase that completed last (log 100). -/
def bodyBars (cnt : Reg) (b : Nat) : Body :=
  withWarp fun x w e m s =>
  match x.stage with
  | [] =>
    let count := (once x cnt m).toNat
    if count > 64 then .trap s (Trap.warp 0x03 m) false
    else if !s.olderDone w x e.seq .t then .wait s
    else
      let ph := (s.bar w.team b).phase
      let (g, s) := s.release w .t
      let s := s.arrive w.team b count g
      if (s.bar w.team b).phase = ph then .wait (s.modWarp w fun x => { x with stage := [ph] })
      else .done (s.acquire w (s.bar w.team b).lastSig)
  | ph :: _ =>
    if (s.bar w.team b).phase = ph then .wait s else .done (s.acquire w (s.bar w.team b).lastSig)
/-- `BARS` dispatched by the warp that acts. -/
def execBars (g : Guard) (cnt : Reg) (b : Nat) (s : State) : Host.Outcome State Fault Refusal :=
  issue .normal (.bars g cnt b) (bodyBars cnt b) s

/-! ### Stage rings (R50 to R52, R246, R168) -/

/-- Whether a stage lets a waiting ring operation proceed (Table 3-8). -/
def ringCond (i : Instr) (n st : Nat) (g : Stage) : Bool :=
  match i with
  | .rput _ n' s' => n' == n && s' == st && !g.full
  | .rget _ n' s' ph => n' == n && s' == st && g.full && g.phase == bit ph
  | _ => false

namespace State

/-- A stage of a ring of a team, if the ring has it. -/
def stage? (s : State) (t n st : Nat) : Option Stage := (s.team? t).bind fun tm => (tm.rings[n]?).bind fun r => r[st]?

def setStage (s : State) (t n st : Nat) (g : Stage) : State :=
  s.modTeam t fun tm => { tm with rings := tm.rings.modify n fun r => r.set st g }

/-- Whether no warp that has waited longer on a stage can proceed (R51). -/
def ringTurn (s : State) (w : WarpId) (n st : Nat) (g : Stage) : Bool :=
  (g.waiters.takeWhile fun v => v != w.widx).all fun v =>
    !((s.warp? ⟨w.team, v⟩).any fun y => y.window.head?.any fun e => ringCond e.instr n st g)

end State

/-- A warp among the waiters of a stage. -/
def Stage.join (g : Stage) (v : Nat) : Stage := if g.waiters.contains v then g else { g with waiters := g.waiters ++ [v] }
/-- A warp no longer among them. -/
def Stage.leave (g : Stage) (v : Nat) : Stage := { g with waiters := g.waiters.filter fun u => u != v }

/-- `RPUT` (R51, R246: a release at team scope). -/
def bodyRput (n : Nat) (st : Nat) : Body :=
  withWarp fun x w e m s =>
  match s.stage? w.team n st with
  | none => .trap s (Trap.warp 0x03 m) false
  | some g =>
    if ringCond e.instr n st g && s.ringTurn w n st g && s.olderDone w x e.seq .t then
      let (sg, s) := s.release w .t
      .done (s.setStage w.team n st { g.leave w.widx with full := true, rcnt := 0, sig := g.sig ||| sg })
    else .wait (s.setStage w.team n st (g.join w.widx))
/-- `RPUT` dispatched by the warp that acts. -/
def execRput (g : Guard) (n st : Nat) (s : State) : Host.Outcome State Fault Refusal :=
  issue .normal (.rput g n st) (bodyRput n st) s

/-- `RGET` (R51, R246: an acquire at team scope). -/
def bodyRget (n : Nat) (st : Nat) : Body :=
  withWarp fun _ w e m s =>
  match s.stage? w.team n st with
  | none => .trap s (Trap.warp 0x03 m) false
  | some g =>
    if ringCond e.instr n st g && s.ringTurn w n st g then
      .done ((s.setStage w.team n st (g.leave w.widx)).acquire w g.sig)
    else .wait (s.setStage w.team n st (g.join w.widx))
/-- `RGET` dispatched by the warp that acts. -/
def execRget (g : Guard) (n st : Nat) (ph : Bool) (s : State) : Host.Outcome State Fault Refusal :=
  issue .normal (.rget g n st ph) (bodyRget n st) s

/-- `RREL` (R51, R246: a release at team scope; the stage empties at CONS releases). -/
def bodyRrel (n : Nat) (st : Nat) : Body :=
  withWarp fun x w e m s =>
  match s.stage? w.team n st, s.gridOf? w.team with
  | some g, some (_, gr) =>
    if !s.olderDone w x e.seq .t then .wait s
    else
      let (sg, s) := s.release w .t
      if g.rcnt + 1 = gr.cons n then
        .done (s.setStage w.team n st { g with full := false, phase := 1 - g.phase, rcnt := 0, sig := 0 })
      else .done (s.setStage w.team n st { g with rcnt := (g.rcnt + 1) % 64, sig := g.sig ||| sg })
  | _, _ => .trap s (Trap.warp 0x03 m) false
/-- `RREL` dispatched by the warp that acts. -/
def execRrel (g : Guard) (n st : Nat) (s : State) : Host.Outcome State Fault Refusal :=
  issue .normal (.rrel g n st) (bodyRrel n st) s

/-! ### Special registers (R35, R247 to R249, Tables 12-3 to 12-5) -/

/-- `sr_mode` of a team (Table 12-5). -/
def State.srMode (s : State) (t : Nat) : Nat :=
  let c := s.ctx (s.ctxOf t)
  bit c.sysc + 2 * bit c.lawf + 4 * bit (((s.gridOf? t).map fun g => g.2.det).getD false)

/-- `sr_pqdl` of a team (R94). -/
def State.srPqdl (s : State) (tm : Team) : Nat :=
  match tm.deadline with
  | some d => d - s.clock
  | none => tm.pqdl

/-- The value of a special register other than `sr_lane` for a warp. -/
def State.srValue (s : State) (w : WarpId) (x : Warp) (n : Nat) : Nat :=
  match s.team? w.team, s.gridOf? w.team with
  | some tm, some (_, g) =>
    match n with
    | 1 => w.widx
    | 2 => tm.idx % g.gdx
    | 3 => tm.idx / g.gdx % g.gdy
    | 4 => tm.idx / (g.gdx * g.gdy)
    | 5 => g.gdx
    | 6 => g.gdy
    | 7 => g.gdz
    | 8 => tm.lcluster * 4 + w.widx % 4
    | 9 => g.rank
    | 10 => g.nrank
    | 11 => g.depth
    | 12 => g.ftv
    | 13 => bit (s.ctx g.ctx).preq
    | 14 => s.srPqdl tm
    | 15 => tm.fstat
    | 20 => s.clock % 2 ^ 64
    | 21 => min (s.part g.part).emeter (2 ^ 32 - 1)
    | 40 => s.mem.l2dom.toNat
    | 41 => s.srMode w.team
    | k =>
      if 16 ≤ k && k ≤ 19 then x.fpend.getD (k - 16) 0 % 2 ^ 24
      else if 32 ≤ k && k ≤ 39 then (s.mem.l2hash.getD (k - 32) 0).toNat
      else 0
  | _, _ => 0

/-- The mapping that a write of `sr_l2dom` or `sr_l2hash`d by a partition would produce: only the fields of its own
domains and stacks change (R123). -/
def mapWrite (p : Part) (dom : DWord) (hash : List DWord) (n v : Nat) : DWord × List DWord :=
  if n = 40 then
    let f := fun (d : Nat) (k : Nat) =>
      if field p.stackMask k 1 == 1 then setField d (3 * k) 3 (field v (3 * k) 3) else d
    (BitVec.ofNat 64 ((List.range 12).foldl f dom.toNat), hash)
  else
    let d := n - 32
    let keep := field v 0 33 + 2 ^ 48 * field v 48 7 + 2 ^ 56 * field v 56 3 + 2 ^ 63 * field v 63 1
    (dom, if field p.pdom d 1 == 1 then hash.set d (BitVec.ofNat 64 keep) else hash)

/-- Whether R126 refuses a mapping for a partition. -/
def mapRefused (p : Part) (dom : DWord) (hash : List DWord) : Bool :=
  let h := fun d => (hash.getD d 0).toNat
  let owns := fun d => field p.pdom d 1 == 1
  ((List.range 12).any fun k => field p.stackMask k 1 == 1 &&
    (let d := field dom.toNat (3 * k) 3; field (h d) 63 1 == 0 || !owns d)) ||
  (List.range 8).any fun d => owns d && field (h d) 63 1 == 1 &&
    (let n := 2 ^ field (h d) 56 3
     let first := field (h d) 48 7
     first % n != 0 || first + n > 128 || (List.range n).any fun k => field p.hubMask ((first + k) / 8) 1 == 0)

/-- The mapping switched (R125): clean lines whose home changes are invalidated, dirty ones are stranded, with what memory holds
of them at the switch, and fills on their way to an old home are lost (R348). -/
def Mem.switchMap (m : Mem) (dom : DWord) (hash : List DWord) : Mem :=
  let home := fun line => l2HomeWith m.l2dom m.l2hash (line * 128)
  let moves := fun line => l2HomeWith dom hash (line * 128) != home line
  let fresh := (m.l2.filter fun e => !e.dirty.isEmpty && moves e.line && e.slice == home e.line).map fun e =>
    { slice := e.slice, line := e.line, key := e.key, base := (List.range 128).map fun o => m.hbmGet e.line e.key o, hist := [] : Strand }
  let kept := m.strands.filter fun (t : Strand) => !(fresh.any fun f => f.slice == t.slice && f.line == t.line && f.key == t.key)
  { m with
    l2dom := dom
    l2hash := hash
    l2 := m.l2.filter fun e => !(e.dirty.isEmpty && moves e.line)
    strands := kept ++ fresh
    fills := m.fills.map fun f => if moves f.line then { f with lost := true } else f }

/-- `SREAD` (R35, R247). -/
def bodySread (d : Reg) (sr : Nat) : Body :=
  withWarp fun x w _ m s =>
  if sr = 0 then putReg s w d.field m .affine fun i => BitVec.ofNat 32 i
  else
    let v := s.srValue w x sr
    if srWide sr then putPair s w d.field m .uniform fun _ => BitVec.ofNat 64 v
    else putReg s w d.field m .uniform fun _ => BitVec.ofNat 32 v
/-- `SREAD` dispatched by the warp that acts. -/
def execSread (g : Guard) (d : Reg) (sr : Nat) (s : State) : Host.Outcome State Fault Refusal :=
  issue .normal (.sread g d sr) (bodySread d sr) s

/-- `SWRITE` (R123, R125, R126, R247 to R249). -/
def bodySwrite (sr : Nat) (b : Reg) : Body :=
  withWarp fun x w _ m s =>
  let l := (lowest m).getD 0
  let v := if srWide sr then (x.rd64n b.field l).toNat else (x.rd b l).toNat
  if sr = 15 then
    let keep := fun (f k : Nat) => f / 2 ^ k % 2 * (1 - v / 2 ^ k % 2)
    .done (s.modTeam w.team fun t => { t with fstat := keep t.fstat 0 + 2 * keep t.fstat 1 })
  else if sr = 41 then .done (s.modCtx (s.ctxOf w.team) fun c => { c with lawf := v / 2 % 2 == 1 })
  else
    let p := s.part (s.partOf w.team)
    let (dom, hash) := mapWrite p s.mem.l2dom s.mem.l2hash sr v
    if mapRefused p dom hash then .trap s (Trap.warp 0x03 m) false
    else .done (s.setMem (s.mem.switchMap dom hash))
/-- `SWRITE` dispatched by the warp that acts. -/
def execSwrite (g : Guard) (sr : Nat) (b : Reg) (s : State) : Host.Outcome State Fault Refusal :=
  issue .serial (.swrite g sr b) (bodySwrite sr b) s

/-! ### Registers, tags and allocation (R78, R80, R81, R250, R251) -/

namespace State

/-- The free physical registers of a core (R80, R81, R90): outside the names and headroom of resident warps, and the
registers that exited warps still owe to operations in flight. -/
def freeRegs (s : State) (c : Nat) : Nat :=
  Config.coreRegs - ((s.warps.filter fun e => e.2.core == c).map fun e =>
    match e.2.status with
    | .saved => 0
    | .exited => inFlight e.2 fun _ _ => true
    | _ => 32 * e.2.g + Config.headroom).foldl (· + ·) 0

/-- The growth requests of a core that still wait, in the order in which they reached dispatch (R80). -/
def growWaiting (s : State) (c : Nat) : List WarpId := (s.core c).grow.filter fun v => (s.warp? v).isSome

/-- A warp's request among those of its core, or no longer among them. -/
def growJoin (s : State) (c : Nat) (w : WarpId) : State :=
  s.modCore c fun y => { y with grow := if y.grow.contains w then y.grow else y.grow ++ [w] }
def growLeave (s : State) (c : Nat) (w : WarpId) : State :=
  s.modCore c fun y => { y with grow := y.grow.filter fun v => v != w }

/-- Whether the growth of a warp can be met now: no earlier request of the core waits, and the pool supplies it (R80). -/
def growFits (s : State) (w : WarpId) (x : Warp) (n : Nat) : Bool :=
  ((s.growWaiting x.core).takeWhile fun v => v != w).isEmpty && 32 * (n - x.g) ≤ s.freeRegs x.core

end State

/-- `REGGROW` (R80, R250). -/
def bodyReggrow (d : Reg) (n : Nat) (nw : Bool) : Body :=
  withWarp fun x w _ m s =>
  let put := fun (s : State) (v : Word) => putReg (s.growLeave x.core w) w d.field m .uniform fun _ => v
  if n ≤ x.g then put s 0
  else if s.growFits w x n then put (s.modWarp w fun x => { x with g := n }) 0
  else if nw then put s 1
  else .wait (s.growJoin x.core w)
/-- Where `REGGROW` waits at dispatch (R80, R250): its request joins those of the core as it gets there, and waits for its
turn and the pool, or under `.nw` only for the old value of D. -/
def gateReggrow (i : Instr) (n : Nat) (nw : Bool) (w : WarpId) (x : Warp) (_m : Mask) (s : State) : Option State :=
  let ready := s.opsReady w x [] i ((x.cursor.map Cursor.rmask).getD 0)
  if n ≤ x.g || (ready && (nw || s.growFits w x n)) then none else some (s.growJoin x.core w)
/-- `REGGROW` dispatched by the warp that acts. -/
def execReggrow (g : Guard) (d : Reg) (n : Nat) (nw : Bool) (s : State) : Host.Outcome State Fault Refusal :=
  issueHeld (gateReggrow (.reggrow g d n nw) n nw) (.reggrow g d n nw) (bodyReggrow d n nw) s

/-- `REGSHRINK` (R80, R250: names at the new bound and above lose their contents). -/
def bodyRegshrink (n : Nat) : Body :=
  withWarp fun x w _ _ s =>
  if x.g ≤ n then .done s
  else .done (s.setWarp w { x with
    g := n
    regs := x.regs.filter fun r => r.1 < 32 * n
    pend := x.pend.filter fun r => r.1 < 32 * n || r.1 ≥ 768 })
/-- `REGSHRINK` dispatched by the warp that acts. -/
def execRegshrink (g : Guard) (n : Nat) (s : State) : Host.Outcome State Fault Refusal :=
  issue .serial (.regshrink g n) (bodyRegshrink n) s

/-- `TAGQ` (R78, R251). -/
def bodyTagq (d : Reg) (a : Reg) : Body :=
  withWarp fun x w _ m s =>
  let code := (x.reg a.field).tag.code
  putReg s w d.field m .uniform fun _ => BitVec.ofNat 32 code
/-- `TAGQ` dispatched by the warp that acts. -/
def execTagq (g : Guard) (d a : Reg) (s : State) : Host.Outcome State Fault Refusal :=
  issue .normal (.tagq g d a) (bodyTagq d a) s

/-! ### Launch (R45 to R47, R252, R253) -/

/-- The first record that `LAUNCH` finds wrong (R252, R381, R386), what must be waited for, or the pages that are
absent: code, lane and address of the lowest failing lane. -/
inductive LaunchCheck where
  | fine (pod : Bool)
  | bad (code lane addr : Nat)
  | absent (pages : List (Nat × Nat × Bool))
  | wait
  deriving DecidableEq, Repr

/-- The check of one lane's record, after those of lower lanes: a failure outranks a wait, a wait outranks an
absence. -/
def checkRecord (w : WarpId) (id : Nat) (x : Warp) (a : Pair) (acc : LaunchCheck × State) (i : Nat) : LaunchCheck × State :=
  let addr := (x.rd64 a i).toNat
  match acc.1 with
  | .bad _ _ _ => acc
  | prev =>
    if addr % 512 ≠ 0 then (.bad 0x13 i addr, acc.2)
    else
      match acc.2.readVa w id addr 512 with
      | (.fail code _, s) => (.bad code i addr, s)
      | (.wait, s) => (.wait, s)
      | (.absent va, s) =>
        (match prev with
         | .wait => .wait
         | .absent l => .absent (if l.any fun p => p.1 == State.pageOf va then l else l ++ [(State.pageOf va, va, false)])
         | _ => .absent [(State.pageOf va, va, false)], s)
      | (.bytes l, s) =>
        if !State.hdrOk (bytesNat l 0 8) then (.bad 0x03 i addr, s)
        else
          (match prev with
           | .fine pod => .fine (pod || bytesNat l 0x050 8 != 0)
           | o => o, s)

/-- The lanes that remain, launched in ascending order until one waits (R45); `stage` holds the lanes launched. -/
def launchLanes (w : WarpId) (id : Nat) (d a : Pair) : List Nat → State → Option Nat × State
  | [], s => (none, s)
  | i :: l, s =>
    match s.warp? w, s.gridOf? w.team with
    | some x, some (gi, g) =>
      let put := fun (s : State) (h : Nat) => s.modWarp w fun x =>
        { (x.writePair d.field (laneBit i) .general .general fun _ => BitVec.ofNat 64 h) with stage := x.stage ++ [i] }
      if g.depth = 10 then launchLanes w id d a l (put s 0)
      else
        match s.launchLane w id (x.rd64 a i).toNat gi g with
        | (some (h, s), _) => launchLanes w id d a l (put s h)
        | (none, s) => (some i, s)
    | _, _ => (none, s)

/-- `LAUNCH` (R45 to R47, R252, R381). -/
def bodyLaunch (d : Pair) (a : Pair) : Body :=
  withWarp fun x w e m s =>
  let go := fun (s : State) (left : List Nat) =>
    match launchLanes w e.seq d a left s with
    | (none, s) => .done (s.inboxDrop w e.seq)
    | (some _, s) => .wait s
  match x.stage with
  | _ :: done => go s ((laneList m).filter fun i => !done.contains i)
  | [] =>
    match (laneList m).foldl (checkRecord w e.seq x a) (.fine false, s) with
    | (.bad code lane addr, s) => .trap s { Trap.at code m addr with lane := lane } false
    | (.wait, s) => .wait s
    | (.absent pages, s) =>
      if pages.any fun p => x.refused.contains p.1 then .trap s (Trap.at 0x10 m ((pages.map (·.2.1)).headD 0)) false
      else .park s m pages false
    | (.fine pod, s) =>
      if !s.olderDone w x e.seq (if pod then .p else .c) then .wait s
      else
        let (_, s) := s.release w (if pod then .p else .c)
        go (s.modWarp w fun x => { x with stage := [32] }) (laneList m)
/-- `LAUNCH` dispatched by the warp that acts. -/
def execLaunch (g : Guard) (d a : Pair) (s : State) : Host.Outcome State Fault Refusal :=
  issue .normal (.launch g d a) (bodyLaunch d a) s

/-- `LWAIT` (R48, R168, R253). -/
def bodyLwait (d : Reg) (a : Pair) (nb : Bool) : Body :=
  withWarp fun x w _ m s =>
  let live := fun i => s.handleLive (s.ctxOf w.team) (x.rd64 a i).toNat
  let acq := fun (s : State) => s.l1InvalidateAll x.core
  if nb then
    putReg (if (laneList m).all live then s else acq s) w d.field m .general fun i => if live i then 0 else 1
  else if (laneList m).any live then .wait s
  else putReg (acq s) w d.field m .uniform fun _ => 1
/-- `LWAIT` dispatched by the warp that acts. -/
def execLwait (g : Guard) (d : Reg) (a : Pair) (nb : Bool) (s : State) : Host.Outcome State Fault Refusal :=
  issue .normal (.lwait g d a nb) (bodyLwait d a nb) s

/-! ### Traps (R254, R255) and translations (R256) -/

/-- `TRAP` (R254: completed in every active lane, so no lane replays). -/
def bodyTrap (n : Nat) : Body :=
  fun _ _ m s =>
  .trap s { Trap.warp 0x07 0 with arg := n, lane := (lowest m).getD 0 } false
/-- `TRAP` dispatched by the warp that acts. -/
def execTrap (g : Guard) (n : Nat) (s : State) : Host.Outcome State Fault Refusal :=
  issue .normal (.trap g n) (bodyTrap n) s

/-- `BRK` (R254). -/
def bodyBrk (n : Nat) : Body :=
  fun _ _ m s =>
  .trap s { Trap.warp 0x08 0 with arg := n, lane := (lowest m).getD 0 } false
/-- `BRK` dispatched by the warp that acts. -/
def execBrk (g : Guard) (n : Nat) (s : State) : Host.Outcome State Fault Refusal :=
  issue .normal (.brk g n) (bodyBrk n) s

/-- `TRET` (R255, R373). -/
def bodyTret (skip : Bool) : Body :=
  fun w _ _ s => .done (s.returnTrap w skip)
/-- `TRET` dispatched by the warp that acts. -/
def execTret (g : Guard) (skip : Bool) (s : State) : Host.Outcome State Fault Refusal :=
  issue .serial (.tret g skip) (bodyTret skip) s

/-- `TINFO` (R255, R370: PCORE and word 14 read 0). -/
def bodyTinfo (d : Reg) (j : Nat) : Body :=
  withWarp fun x w _ m s =>
  let v := ((x.handler.map fun h => bytesNat (h.trec.bytes false) (4 * j) 4).getD 0)
  putReg s w d.field m .uniform fun _ => BitVec.ofNat 32 v
/-- `TINFO` dispatched by the warp that acts. -/
def execTinfo (g : Guard) (d : Reg) (j : Nat) (s : State) : Host.Outcome State Fault Refusal :=
  issue .normal (.tinfo g d j) (bodyTinfo d j) s

/-- `TLBINV` (R119, R256). -/
def bodyTlbinv (a : Pair) (b : Reg) (all : Bool) : Body :=
  withWarp fun x w e m s =>
  let l := (lowest m).getD 0
  let c := (x.rd b l).toNat % 4096
  let va := (x.rd64 a l).toNat
  if !(s.ctx c).v || (s.ctx c).part != s.partOf w.team then .trap s (Trap.warp 0x03 m) false
  else if !s.olderDone w x e.seq .c then .wait s
  else
    let (_, s) := s.release w .c
    .done (s.tlbDrop fun t => t.ctx == c && (all || State.tlbHit c va t))
/-- `TLBINV` dispatched by the warp that acts. -/
def execTlbinv (g : Guard) (a : Pair) (b : Reg) (all : Bool) (s : State) : Host.Outcome State Fault Refusal :=
  issue .normal (.tlbinv g a b all) (bodyTlbinv a b all) s

end Sys2Proof.Machine
end

