-- ==== Sys2Proof/Machine/Convert.lean ====
section
/-! DEFINITION. Group 2, conversions (R284 to R291). -/

namespace Sys2Proof.Machine

/-- CVTIF (R284). -/
def bodyCvtif (d : Reg) (a : Reg) (rnd : Round) (u : Bool) (fmt : CvtFmt) (s64 : Bool) : Body :=
  bodyCvt d a (fmt == .f64) s64 (laneCvtif rnd u fmt s64)
/-- `CVTIF` dispatched by the warp that acts. -/
def execCvtif (g : Guard) (d a : Reg) (rnd : Round) (u : Bool) (fmt : CvtFmt) (s64 : Bool) (s : State) : Host.Outcome State Fault Refusal :=
  issue .normal (.cvtif g d a rnd u fmt s64) (bodyCvtif d a rnd u fmt s64) s

/-- CVTFI (R285). -/
def bodyCvtfi (d : Reg) (a : Reg) (rnd : Round) (u : Bool) (fmt : CvtFmt) (d64 : Bool) : Body :=
  bodyCvt d a d64 (fmt == .f64) (laneCvtfi rnd u fmt d64)
/-- `CVTFI` dispatched by the warp that acts. -/
def execCvtfi (g : Guard) (d a : Reg) (rnd : Round) (u : Bool) (fmt : CvtFmt) (d64 : Bool) (s : State) : Host.Outcome State Fault Refusal :=
  issue .normal (.cvtfi g d a rnd u fmt d64) (bodyCvtfi d a rnd u fmt d64) s

/-- CVTFF (R286). -/
def bodyCvtff (d : Reg) (a : Reg) (rnd : Round) (dst : CvtFmt) (src : CvtFmt) : Body :=
  bodyCvt d a (dst == .f64) (src == .f64) (laneCvtff rnd dst src)
/-- `CVTFF` dispatched by the warp that acts. -/
def execCvtff (g : Guard) (d a : Reg) (rnd : Round) (dst src : CvtFmt) (s : State) : Host.Outcome State Fault Refusal :=
  issue .normal (.cvtff g d a rnd dst src) (bodyCvtff d a rnd dst src) s

/-- The scale operand of a slot instruction: ignored where the slot has none (R287). -/
def evalScale (s : State) (w : WarpId) (x : Warp) (sl : Slot) (b : SrcB) : Opnd × State :=
  if sl.sfmt = 0 then (.ok (uniformReg 0), s) else evalB s w x b

/-- CVTN (R287): P source registers from A, one word. -/
def bodyCvtn (d : Reg) (a : Reg) (b : SrcB) (slot : Nat) : Body :=
  withWarp fun x w _ m s =>
  let sl := s.slots w slot
  match evalScale s w x sl b with
  | (.ok vb, s) =>
    let srcs := (List.range sl.words).map fun k => x.reg (a.field + k)
    putReg s w d.field m (tagAll (vb :: srcs)) fun i => laneCvtn sl i (vb.at i) (srcs.map fun r => r.at i)
  | (o, s) => opndEff s w m o
/-- `CVTN` dispatched by the warp that acts. -/
def execCvtn (g : Guard) (d a : Reg) (b : SrcB) (slot : Nat) (s : State) : Host.Outcome State Fault Refusal :=
  issue .normal (.cvtn g d a b slot) (bodyCvtn d a b slot) s

/-- CVTW (R288): one word, P destination registers from D. -/
def bodyCvtw (d : Reg) (a : Reg) (b : SrcB) (slot : Nat) : Body :=
  withWarp fun x w _ m s =>
  let sl := s.slots w slot
  match evalScale s w x sl b with
  | (.ok vb, s) =>
    let va := x.reg a.field
    .done (s.modWarp w fun x => (List.range sl.words).foldl (fun x k =>
      x.writeReg (d.field + k) m (tagAll [va, vb]) fun i => (laneCvtw sl (vb.at i) (va.at i)).getD k 0) x)
  | (o, s) => opndEff s w m o
/-- `CVTW` dispatched by the warp that acts. -/
def execCvtw (g : Guard) (d a : Reg) (b : SrcB) (slot : Nat) (s : State) : Host.Outcome State Fault Refusal :=
  issue .normal (.cvtw g d a b slot) (bodyCvtw d a b slot) s

/-- CBDEC (R289). -/
def bodyCbdec (d : Reg) (a : Reg) (fmt : CbFmt) (hi : Bool) : Body :=
  withWarp fun x w _ m s =>
  let va := x.reg a.field
  .done (s.modWarp w fun x => (List.range (cbRegs fmt)).foldl (fun x k =>
    x.writeReg (d.field + k) m (tagAll [va]) fun i => (laneCbdec fmt hi (va.at i)).getD k 0) x)
/-- `CBDEC` dispatched by the warp that acts. -/
def execCbdec (g : Guard) (d a : Reg) (fmt : CbFmt) (hi : Bool) (s : State) : Host.Outcome State Fault Refusal :=
  issue .normal (.cbdec g d a fmt hi) (bodyCbdec d a fmt hi) s

/-- SCALQ (R290). -/
def bodyScalq (d : Reg) (a : Reg) (slot : Nat) : Body :=
  withWarp fun x w _ m s =>
  let va := x.reg a.field
  putReg s w d.field m (tagAll [va]) fun i => laneScalq (s.slots w slot) (va.at i)
/-- `SCALQ` dispatched by the warp that acts. -/
def execScalq (g : Guard) (d a : Reg) (slot : Nat) (s : State) : Host.Outcome State Fault Refusal :=
  issue .normal (.scalq g d a slot) (bodyScalq d a slot) s

/-- AMAX (R291): `.warp` combines the active lanes by the tree of R218. -/
def bodyAmax (d : Reg) (a : Reg) (b : SrcB) (warp : Bool) (fmt : AmaxFmt) : Body :=
  withWarp fun x w _ m s =>
  match evalB s w x b with
  | (.ok vb, s) =>
    let va := x.reg a.field
    let v := fun i => laneAmax fmt (va.at i) (vb.at i)
    if warp then
      let r := xlBelow laneFmax (fun i => if m.getLsbD i then some (v i) else none) 32
      putReg s w d.field m .uniform fun _ => r.getD 0
    else putReg s w d.field m (tagAll [va, vb]) v
  | (o, s) => opndEff s w m o
/-- `AMAX` dispatched by the warp that acts. -/
def execAmax (g : Guard) (d a : Reg) (b : SrcB) (warp : Bool) (fmt : AmaxFmt) (s : State) : Host.Outcome State Fault Refusal :=
  issue .normal (.amax g d a b warp fmt) (bodyAmax d a b warp fmt) s

end Sys2Proof.Machine
end

