-- ==== Sys2Proof/Machine/CrossLane.lean ====
section
/-! DEFINITION. Group 2, predicates and cross-lane operations (R262 to R265). -/

namespace Sys2Proof.Machine

/-- PLOP3 (Table 12-7). -/
def bodyPlop3 (pd : Nat) (pa : Nat) (pb : Nat) (lut : BitVec 8) : Body :=
  withWarp fun x w _ m s => putPred s w pd m fun i =>
    lut.getLsbD (4 * ((x.pred pd).getLsbD i).toNat + 2 * ((x.pred pb).getLsbD i).toNat + ((x.pred pa).getLsbD i).toNat)
/-- `PLOP3` dispatched by the warp that acts. -/
def execPlop3 (g : Guard) (pd pa pb : Nat) (lut : BitVec 8) (s : State) : Host.Outcome State Fault Refusal :=
  issue .normal (.plop3 g pd pa pb lut) (bodyPlop3 pd pa pb lut) s

/-- P2V (Table 12-7): the whole predicate as a word. -/
def bodyP2v (d : Reg) (pa : Nat) : Body :=
  withWarp fun x w _ m s => putReg s w d.field m (tagAll []) fun _ => x.pred pa
/-- `P2V` dispatched by the warp that acts. -/
def execP2v (g : Guard) (d : Reg) (pa : Nat) (s : State) : Host.Outcome State Fault Refusal :=
  issue .normal (.p2v g d pa) (bodyP2v d pa) s

/-- V2P (Table 12-7). -/
def bodyV2p (pd : Nat) (a : Reg) (mask : Bool) : Body :=
  withWarp fun x w _ m s => putPred s w pd m fun i =>
    if mask then (x.rd a i).getLsbD i else x.rd a i != 0
/-- `V2P` dispatched by the warp that acts. -/
def execV2p (g : Guard) (pd : Nat) (a : Reg) (mask : Bool) (s : State) : Host.Outcome State Fault Refusal :=
  issue .normal (.v2p g pd a mask) (bodyV2p pd a mask) s

/-- VOTE (R262). -/
def bodyVote (pd : Nat) (pa : Nat) (m : VoteMode) : Body :=
  withWarp fun x w _ mk s =>
  let yes := x.pred pa &&& mk
  let r := match m with
    | .all => yes == mk
    | .any => yes != 0
    | .eq => yes == mk || yes == 0
  putPred s w pd mk fun _ => r
/-- `VOTE` dispatched by the warp that acts. -/
def execVote (g : Guard) (pd pa : Nat) (m : VoteMode) (s : State) : Host.Outcome State Fault Refusal :=
  issue .normal (.vote g pd pa m) (bodyVote pd pa m) s

/-- PCNT (Table 12-7). -/
def bodyPcnt (d : Reg) (pa : Nat) : Body :=
  withWarp fun x w _ m s => putReg s w d.field m (tagAll []) fun _ => BitVec.ofNat 32 (popc (x.pred pa &&& m))
/-- `PCNT` dispatched by the warp that acts. -/
def execPcnt (g : Guard) (d : Reg) (pa : Nat) (s : State) : Host.Outcome State Fault Refusal :=
  issue .normal (.pcnt g d pa) (bodyPcnt d pa) s

/-- ELECT (Table 12-7). -/
def bodyElect (pd : Nat) : Body :=
  withWarp fun _ w _ m s => putPred s w pd m fun i => lowest m == some i
/-- `ELECT` dispatched by the warp that acts. -/
def execElect (g : Guard) (pd : Nat) (s : State) : Host.Outcome State Fault Refusal :=
  issue .normal (.elect g pd) (bodyElect pd) s

/-- The source lane of SHFL (R263). -/
def shflLane (m : ShflMode) (i b : Nat) : Nat :=
  match m with
  | .idx => b % 32
  | .up => if b ≤ i then i - b else i
  | .down => if i + b ≤ 31 then i + b else i
  | .xor => i ^^^ (b % 32)

/-- SHFL (R263). -/
def bodyShfl (d : Reg) (a : Reg) (b : SrcB) (m : ShflMode) : Body :=
  withWarp fun x w _ mk s =>
  match evalB s w x b with
  | (.ok vb, s) => putReg s w d.field mk .general fun i => x.rd a (shflLane m i (vb.at i).toNat)
  | (o, s) => opndEff s w mk o
/-- `SHFL` dispatched by the warp that acts. -/
def execShfl (g : Guard) (d a : Reg) (b : SrcB) (m : ShflMode) (s : State) : Host.Outcome State Fault Refusal :=
  issue .normal (.shfl g d a b m) (bodyShfl d a b m) s

/-- BCAST (Table 12-7): the lane that B names in the lowest active lane. -/
def bodyBcast (d : Reg) (a : Reg) (b : SrcB) : Body :=
  withWarp fun x w _ m s =>
  match evalB s w x b with
  | (.ok vb, s) => putReg s w d.field m .uniform fun _ => x.rd a ((vb.at ((lowest m).getD 0)).toNat % 32)
  | (o, s) => opndEff s w m o
/-- `BCAST` dispatched by the warp that acts. -/
def execBcast (g : Guard) (d a : Reg) (b : SrcB) (s : State) : Host.Outcome State Fault Refusal :=
  issue .normal (.bcast g d a b) (bodyBcast d a b) s

/-- The word of a lane in the cross-lane tree: absent where the lane is inactive (R218). -/
def activeWord (x : Warp) (a : Reg) (m : Mask) (i : Nat) : Option Word := if m.getLsbD i then some (x.rd a i) else none

/-- REDUX (R264). -/
def bodyRedux (d : Reg) (a : Reg) (op : RedOp) : Body :=
  withWarp fun x w _ m s =>
  let v := xlBelow (redOp op) (activeWord x a m) 32
  putReg s w d.field m .uniform fun _ => v.getD 0
/-- `REDUX` dispatched by the warp that acts. -/
def execRedux (g : Guard) (d a : Reg) (op : RedOp) (s : State) : Host.Outcome State Fault Refusal :=
  issue .normal (.redux g d a op) (bodyRedux d a op) s

/-- SCAN (R264). -/
def bodyScan (d : Reg) (a : Reg) (op : RedOp) (excl : Bool) : Body :=
  withWarp fun x w _ m s => putReg s w d.field m .general fun i =>
    (xlBelow (redOp op) (activeWord x a m) (if excl then i else i + 1)).getD (redIdentity op)
/-- `SCAN` dispatched by the warp that acts. -/
def execScan (g : Guard) (d a : Reg) (op : RedOp) (excl : Bool) (s : State) : Host.Outcome State Fault Refusal :=
  issue .normal (.scan g d a op excl) (bodyScan d a op excl) s

/-- MATCH (R265). -/
def bodyMatch (d : Reg) (a : Reg) (b64 : Bool) : Body :=
  withWarp fun x w _ m s => putReg s w d.field m .general fun i =>
    maskOf fun k => m.getLsbD k && x.rd a k == x.rd a i &&
      (!b64 || (x.reg (Warp.upper a.field)).at k == (x.reg (Warp.upper a.field)).at i)
/-- `MATCH` dispatched by the warp that acts. -/
def execMatch (g : Guard) (d a : Reg) (b64 : Bool) (s : State) : Host.Outcome State Fault Refusal :=
  issue .normal (.match g d a b64) (bodyMatch d a b64) s

end Sys2Proof.Machine
end

