-- ==== Sys2Proof/Machine/FloatArith.lean ====
section
/-! DEFINITION. Group 3, floating point (R266 to R283). -/

namespace Sys2Proof.Machine

/-- FADD (R267). -/
def bodyFadd (d : Reg) (a : Reg) (b : SrcB) (m : FMod) : Body :=
  body2 d a b tag2 (laneFadd m)
/-- `FADD` dispatched by the warp that acts. -/
def execFadd (g : Guard) (d a : Reg) (b : SrcB) (m : FMod) (s : State) : Host.Outcome State Fault Refusal :=
  issue .normal (.fadd g d a b m) (bodyFadd d a b m) s

/-- FSUB (R267). -/
def bodyFsub (d : Reg) (a : Reg) (b : SrcB) (m : FMod) : Body :=
  body2 d a b tag2 (laneFsub m)
/-- `FSUB` dispatched by the warp that acts. -/
def execFsub (g : Guard) (d a : Reg) (b : SrcB) (m : FMod) (s : State) : Host.Outcome State Fault Refusal :=
  issue .normal (.fsub g d a b m) (bodyFsub d a b m) s

/-- FMUL (R267). -/
def bodyFmul (d : Reg) (a : Reg) (b : SrcB) (m : FMod) : Body :=
  body2 d a b tag2 (laneFmul m)
/-- `FMUL` dispatched by the warp that acts. -/
def execFmul (g : Guard) (d a : Reg) (b : SrcB) (m : FMod) (s : State) : Host.Outcome State Fault Refusal :=
  issue .normal (.fmul g d a b m) (bodyFmul d a b m) s

/-- FFMA (R267). -/
def bodyFfma (d : Reg) (a : Reg) (b : Reg) (c : Reg) (m : FMod) : Body :=
  body3 d a b c (laneFfma m)
/-- `FFMA` dispatched by the warp that acts. -/
def execFfma (g : Guard) (d a b c : Reg) (m : FMod) (s : State) : Host.Outcome State Fault Refusal :=
  issue .normal (.ffma g d a b c m) (bodyFfma d a b c m) s

/-- FMIN (R268). -/
def bodyFmin (d : Reg) (a : Reg) (b : SrcB) : Body :=
  body2 d a b tag2 laneFmin
/-- `FMIN` dispatched by the warp that acts. -/
def execFmin (g : Guard) (d a : Reg) (b : SrcB) (s : State) : Host.Outcome State Fault Refusal :=
  issue .normal (.fmin g d a b) (bodyFmin d a b) s

/-- FMAX (R268). -/
def bodyFmax (d : Reg) (a : Reg) (b : SrcB) : Body :=
  body2 d a b tag2 laneFmax
/-- `FMAX` dispatched by the warp that acts. -/
def execFmax (g : Guard) (d a : Reg) (b : SrcB) (s : State) : Host.Outcome State Fault Refusal :=
  issue .normal (.fmax g d a b) (bodyFmax d a b) s

/-- FSETP (R269). -/
def bodyFsetp (pd : Nat) (a : Reg) (b : SrcB) (cc : FltCmp) : Body :=
  bodyCmp pd a b fun p q => fltCmp cc (f32 p) (f32 q)
/-- `FSETP` dispatched by the warp that acts. -/
def execFsetp (g : Guard) (pd : Nat) (a : Reg) (b : SrcB) (cc : FltCmp) (s : State) : Host.Outcome State Fault Refusal :=
  issue .normal (.fsetp g pd a b cc) (bodyFsetp pd a b cc) s

/-- FCLASS (R270). -/
def bodyFclass (d : Reg) (a : Reg) : Body :=
  body1 d a laneFclass
/-- `FCLASS` dispatched by the warp that acts. -/
def execFclass (g : Guard) (d a : Reg) (s : State) : Host.Outcome State Fault Refusal :=
  issue .normal (.fclass g d a) (bodyFclass d a) s

/-- FRND (R271). -/
def bodyFrnd (d : Reg) (a : Reg) (rnd : Round) : Body :=
  body1 d a (laneFrnd rnd)
/-- `FRND` dispatched by the warp that acts. -/
def execFrnd (g : Guard) (d a : Reg) (rnd : Round) (s : State) : Host.Outcome State Fault Refusal :=
  issue .normal (.frnd g d a rnd) (bodyFrnd d a rnd) s

/-- A tabled function of one source under the grid's function-table version (R219, R273). -/
def bodyFn (fn : FloatFn) (d a : Reg) : Body := withWarp fun x w _ m s =>
  let ftv := ((s.gridOf? w.team).map fun g => g.2.ftv).getD 1
  let va := x.reg a.field
  putReg s w d.field m (tagAll [va]) fun i => w32 (floatFn fn ftv (va.at i).toNat)

/-- FRCP (R274). -/
def bodyFrcp (d : Reg) (a : Reg) : Body :=
  bodyFn .rcp d a
/-- `FRCP` dispatched by the warp that acts. -/
def execFrcp (g : Guard) (d a : Reg) (s : State) : Host.Outcome State Fault Refusal :=
  issue .normal (.frcp g d a) (bodyFrcp d a) s

/-- FRSQ (R275). -/
def bodyFrsq (d : Reg) (a : Reg) : Body :=
  bodyFn .rsq d a
/-- `FRSQ` dispatched by the warp that acts. -/
def execFrsq (g : Guard) (d a : Reg) (s : State) : Host.Outcome State Fault Refusal :=
  issue .normal (.frsq g d a) (bodyFrsq d a) s

/-- FSQRT (R272). -/
def bodyFsqrt (d : Reg) (a : Reg) (rnd : Round) : Body :=
  body1 d a (laneFsqrt rnd)
/-- `FSQRT` dispatched by the warp that acts. -/
def execFsqrt (g : Guard) (d a : Reg) (rnd : Round) (s : State) : Host.Outcome State Fault Refusal :=
  issue .normal (.fsqrt g d a rnd) (bodyFsqrt d a rnd) s

/-- FDIV (R272). -/
def bodyFdiv (d : Reg) (a : Reg) (b : SrcB) (rnd : Round) : Body :=
  body2 d a b tag2 (laneFdiv rnd)
/-- `FDIV` dispatched by the warp that acts. -/
def execFdiv (g : Guard) (d a : Reg) (b : SrcB) (rnd : Round) (s : State) : Host.Outcome State Fault Refusal :=
  issue .normal (.fdiv g d a b rnd) (bodyFdiv d a b rnd) s

/-- FEXPF (R276). -/
def bodyFexpf (d : Reg) (a : Reg) : Body :=
  bodyFn .exp2 d a
/-- `FEXPF` dispatched by the warp that acts. -/
def execFexpf (g : Guard) (d a : Reg) (s : State) : Host.Outcome State Fault Refusal :=
  issue .normal (.fexpf g d a) (bodyFexpf d a) s

/-- FLOGF (R277). -/
def bodyFlogf (d : Reg) (a : Reg) : Body :=
  bodyFn .log2 d a
/-- `FLOGF` dispatched by the warp that acts. -/
def execFlogf (g : Guard) (d a : Reg) (s : State) : Host.Outcome State Fault Refusal :=
  issue .normal (.flogf g d a) (bodyFlogf d a) s

/-- FSIN (R278). -/
def bodyFsin (d : Reg) (a : Reg) : Body :=
  bodyFn .sin d a
/-- `FSIN` dispatched by the warp that acts. -/
def execFsin (g : Guard) (d a : Reg) (s : State) : Host.Outcome State Fault Refusal :=
  issue .normal (.fsin g d a) (bodyFsin d a) s

/-- FCOS (R278). -/
def bodyFcos (d : Reg) (a : Reg) : Body :=
  bodyFn .cos d a
/-- `FCOS` dispatched by the warp that acts. -/
def execFcos (g : Guard) (d a : Reg) (s : State) : Host.Outcome State Fault Refusal :=
  issue .normal (.fcos g d a) (bodyFcos d a) s

/-- FSCALE (R280). -/
def bodyFscale (d : Reg) (a : Reg) (b : SrcB) (rnd : Round) : Body :=
  body2 d a b tag2 (laneFscale rnd)
/-- `FSCALE` dispatched by the warp that acts. -/
def execFscale (g : Guard) (d a : Reg) (b : SrcB) (rnd : Round) (s : State) : Host.Outcome State Fault Refusal :=
  issue .normal (.fscale g d a b rnd) (bodyFscale d a b rnd) s

/-- FEXPO (R280). -/
def bodyFexpo (d : Reg) (a : Reg) : Body :=
  body1 d a laneFexpo
/-- `FEXPO` dispatched by the warp that acts. -/
def execFexpo (g : Guard) (d a : Reg) (s : State) : Host.Outcome State Fault Refusal :=
  issue .normal (.fexpo g d a) (bodyFexpo d a) s

/-- FMANT (R280). -/
def bodyFmant (d : Reg) (a : Reg) : Body :=
  body1 d a laneFmant
/-- `FMANT` dispatched by the warp that acts. -/
def execFmant (g : Guard) (d a : Reg) (s : State) : Host.Outcome State Fault Refusal :=
  issue .normal (.fmant g d a) (bodyFmant d a) s

/-- HADD2 (R281). -/
def bodyHadd2 (d : Reg) (a : Reg) (b : SrcB) (m : HMod) : Body :=
  body2 d a b tag2 (laneHadd2 m)
/-- `HADD2` dispatched by the warp that acts. -/
def execHadd2 (g : Guard) (d a : Reg) (b : SrcB) (m : HMod) (s : State) : Host.Outcome State Fault Refusal :=
  issue .normal (.hadd2 g d a b m) (bodyHadd2 d a b m) s

/-- HMUL2 (R281). -/
def bodyHmul2 (d : Reg) (a : Reg) (b : SrcB) (m : HMod) : Body :=
  body2 d a b tag2 (laneHmul2 m)
/-- `HMUL2` dispatched by the warp that acts. -/
def execHmul2 (g : Guard) (d a : Reg) (b : SrcB) (m : HMod) (s : State) : Host.Outcome State Fault Refusal :=
  issue .normal (.hmul2 g d a b m) (bodyHmul2 d a b m) s

/-- HFMA2 (R281). -/
def bodyHfma2 (d : Reg) (a : Reg) (b : Reg) (c : Reg) (m : HMod) : Body :=
  body3 d a b c (laneHfma2 m)
/-- `HFMA2` dispatched by the warp that acts. -/
def execHfma2 (g : Guard) (d a b c : Reg) (m : HMod) (s : State) : Host.Outcome State Fault Refusal :=
  issue .normal (.hfma2 g d a b c m) (bodyHfma2 d a b c m) s

/-- HMNMX2 (R268, R281). -/
def bodyHmnmx2 (d : Reg) (a : Reg) (b : SrcB) (max : Bool) (bf : Bool) : Body :=
  body2 d a b tag2 (laneHmnmx2 max bf)
/-- `HMNMX2` dispatched by the warp that acts. -/
def execHmnmx2 (g : Guard) (d a : Reg) (b : SrcB) (max bf : Bool) (s : State) : Host.Outcome State Fault Refusal :=
  issue .normal (.hmnmx2 g d a b max bf) (bodyHmnmx2 d a b max bf) s

/-- FDOT2 (R282). -/
def bodyFdot2 (d : Reg) (a : Reg) (b : Reg) (c : Reg) (m : HMod) : Body :=
  body3 d a b c (laneFdot2 m)
/-- `FDOT2` dispatched by the warp that acts. -/
def execFdot2 (g : Guard) (d a b c : Reg) (m : HMod) (s : State) : Host.Outcome State Fault Refusal :=
  issue .normal (.fdot2 g d a b c m) (bodyFdot2 d a b c m) s

/-- DADD (R283). -/
def bodyDadd (d : Pair) (a : Pair) (b : SrcB64) (m : FMod) : Body :=
  body64 d a b (laneDadd m)
/-- `DADD` dispatched by the warp that acts. -/
def execDadd (g : Guard) (d a : Pair) (b : SrcB64) (m : FMod) (s : State) : Host.Outcome State Fault Refusal :=
  issue .normal (.dadd g d a b m) (bodyDadd d a b m) s

/-- DMUL (R283). -/
def bodyDmul (d : Pair) (a : Pair) (b : SrcB64) (m : FMod) : Body :=
  body64 d a b (laneDmul m)
/-- `DMUL` dispatched by the warp that acts. -/
def execDmul (g : Guard) (d a : Pair) (b : SrcB64) (m : FMod) (s : State) : Host.Outcome State Fault Refusal :=
  issue .normal (.dmul g d a b m) (bodyDmul d a b m) s

/-- DFMA (R283). -/
def bodyDfma (d : Pair) (a : Pair) (b : Pair) (c : Pair) (m : FMod) : Body :=
  withWarp fun x w _ mk s =>
  putPair s w d.field mk (tagAll (pairRegs x a.field ++ pairRegs x b.field ++ pairRegs x c.field)) fun i =>
    laneDfma m (x.rd64 a i) (x.rd64 b i) (x.rd64 c i)
/-- `DFMA` dispatched by the warp that acts. -/
def execDfma (g : Guard) (d a b c : Pair) (m : FMod) (s : State) : Host.Outcome State Fault Refusal :=
  issue .normal (.dfma g d a b c m) (bodyDfma d a b c m) s

end Sys2Proof.Machine
end

