-- ==== Sys2Proof/Machine/Integer.lean ====
section
/-! DEFINITION. Group 1, integer and logic (R257 to R261). -/

namespace Sys2Proof.Machine

/-- IADD (R257). -/
def bodyIadd (d : Reg) (a : Reg) (b : SrcB) (k : SatKind) : Body :=
  body2 d a b (tagIadd k false) (laneIadd k)
/-- `IADD` dispatched by the warp that acts. -/
def execIadd (g : Guard) (d a : Reg) (b : SrcB) (k : SatKind) (s : State) : Host.Outcome State Fault Refusal :=
  issue .normal (.iadd g d a b k) (bodyIadd d a b k) s

/-- ISUB (R257). -/
def bodyIsub (d : Reg) (a : Reg) (b : SrcB) (k : SatKind) : Body :=
  body2 d a b (tagIadd k true) (laneIsub k)
/-- `ISUB` dispatched by the warp that acts. -/
def execIsub (g : Guard) (d a : Reg) (b : SrcB) (k : SatKind) (s : State) : Host.Outcome State Fault Refusal :=
  issue .normal (.isub g d a b k) (bodyIsub d a b k) s

/-- IMUL (R257). -/
def bodyImul (d : Reg) (a : Reg) (b : SrcB) : Body :=
  body2 d a b tagMul (· * ·)
/-- `IMUL` dispatched by the warp that acts. -/
def execImul (g : Guard) (d a : Reg) (b : SrcB) (s : State) : Host.Outcome State Fault Refusal :=
  issue .normal (.imul g d a b) (bodyImul d a b) s

/-- IMULH (R257). -/
def bodyImulh (d : Reg) (a : Reg) (b : SrcB) (u : Bool) : Body :=
  body2 d a b tag2 (laneImulh u)
/-- `IMULH` dispatched by the warp that acts. -/
def execImulh (g : Guard) (d a : Reg) (b : SrcB) (u : Bool) (s : State) : Host.Outcome State Fault Refusal :=
  issue .normal (.imulh g d a b u) (bodyImulh d a b u) s

/-- IMAD (R257). -/
def bodyImad (d : Reg) (a : Reg) (b : Reg) (c : Reg) : Body :=
  body3 d a b c fun a b c => a * b + c
/-- `IMAD` dispatched by the warp that acts. -/
def execImad (g : Guard) (d a b c : Reg) (s : State) : Host.Outcome State Fault Refusal :=
  issue .normal (.imad g d a b c) (bodyImad d a b c) s

/-- IMADW (R257). -/
def bodyImadw (d : Pair) (a : Reg) (b : Reg) (c : Pair) (u : Bool) : Body :=
  withWarp fun x w _ m s =>
  putPair s w d.field m (tagAll ([x.reg a.field, x.reg b.field] ++ pairRegs x c.field)) fun i =>
    laneImadw u (x.rd a i) (x.rd b i) (x.rd64 c i)
/-- `IMADW` dispatched by the warp that acts. -/
def execImadw (g : Guard) (d : Pair) (a b : Reg) (c : Pair) (u : Bool) (s : State) : Host.Outcome State Fault Refusal :=
  issue .normal (.imadw g d a b c u) (bodyImadw d a b c u) s

/-- IADD64 (R257). -/
def bodyIadd64 (d : Pair) (a : Pair) (b : SrcB64) : Body :=
  body64 d a b (· + ·)
/-- `IADD64` dispatched by the warp that acts. -/
def execIadd64 (g : Guard) (d a : Pair) (b : SrcB64) (s : State) : Host.Outcome State Fault Refusal :=
  issue .normal (.iadd64 g d a b) (bodyIadd64 d a b) s

/-- ISUB64 (R257). -/
def bodyIsub64 (d : Pair) (a : Pair) (b : SrcB64) : Body :=
  body64 d a b (· - ·)
/-- `ISUB64` dispatched by the warp that acts. -/
def execIsub64 (g : Guard) (d a : Pair) (b : SrcB64) (s : State) : Host.Outcome State Fault Refusal :=
  issue .normal (.isub64 g d a b) (bodyIsub64 d a b) s

/-- IMIN (R257). -/
def bodyImin (d : Reg) (a : Reg) (b : SrcB) (u : Bool) : Body :=
  body2 d a b tag2 (laneImin u)
/-- `IMIN` dispatched by the warp that acts. -/
def execImin (g : Guard) (d a : Reg) (b : SrcB) (u : Bool) (s : State) : Host.Outcome State Fault Refusal :=
  issue .normal (.imin g d a b u) (bodyImin d a b u) s

/-- IMAX (R257). -/
def bodyImax (d : Reg) (a : Reg) (b : SrcB) (u : Bool) : Body :=
  body2 d a b tag2 (laneImax u)
/-- `IMAX` dispatched by the warp that acts. -/
def execImax (g : Guard) (d a : Reg) (b : SrcB) (u : Bool) (s : State) : Host.Outcome State Fault Refusal :=
  issue .normal (.imax g d a b u) (bodyImax d a b u) s

/-- IABS (R257). -/
def bodyIabs (d : Reg) (a : Reg) (sat : Bool) : Body :=
  body1 d a (laneIabs sat)
/-- `IABS` dispatched by the warp that acts. -/
def execIabs (g : Guard) (d a : Reg) (sat : Bool) (s : State) : Host.Outcome State Fault Refusal :=
  issue .normal (.iabs g d a sat) (bodyIabs d a sat) s

/-- INEG (R257). -/
def bodyIneg (d : Reg) (a : Reg) (sat : Bool) : Body :=
  body1 d a (laneIneg sat)
/-- `INEG` dispatched by the warp that acts. -/
def execIneg (g : Guard) (d a : Reg) (sat : Bool) (s : State) : Host.Outcome State Fault Refusal :=
  issue .normal (.ineg g d a sat) (bodyIneg d a sat) s

/-- ISAT (R257). -/
def bodyIsat (d : Reg) (a : Reg) (r : SatRange) : Body :=
  body1 d a (laneIsat r)
/-- `ISAT` dispatched by the warp that acts. -/
def execIsat (g : Guard) (d a : Reg) (r : SatRange) (s : State) : Host.Outcome State Fault Refusal :=
  issue .normal (.isat g d a r) (bodyIsat d a r) s

/-- IDIV (R258). -/
def bodyIdiv (d : Reg) (a : Reg) (b : SrcB) (u : Bool) : Body :=
  body2 d a b tag2 (laneIdiv u)
/-- `IDIV` dispatched by the warp that acts. -/
def execIdiv (g : Guard) (d a : Reg) (b : SrcB) (u : Bool) (s : State) : Host.Outcome State Fault Refusal :=
  issue .normal (.idiv g d a b u) (bodyIdiv d a b u) s

/-- IREM (R258). -/
def bodyIrem (d : Reg) (a : Reg) (b : SrcB) (u : Bool) : Body :=
  body2 d a b tag2 (laneIrem u)
/-- `IREM` dispatched by the warp that acts. -/
def execIrem (g : Guard) (d a : Reg) (b : SrcB) (u : Bool) (s : State) : Host.Outcome State Fault Refusal :=
  issue .normal (.irem g d a b u) (bodyIrem d a b u) s

/-- IDOT4 (R257). -/
def bodyIdot4 (d : Reg) (a : Reg) (b : Reg) (c : Reg) (ua : Bool) (ub : Bool) : Body :=
  body3 d a b c (laneIdot 4 8 ua ub)
/-- `IDOT4` dispatched by the warp that acts. -/
def execIdot4 (g : Guard) (d a b c : Reg) (ua ub : Bool) (s : State) : Host.Outcome State Fault Refusal :=
  issue .normal (.idot4 g d a b c ua ub) (bodyIdot4 d a b c ua ub) s

/-- IDOT2 (R257). -/
def bodyIdot2 (d : Reg) (a : Reg) (b : Reg) (c : Reg) (ua : Bool) (ub : Bool) : Body :=
  body3 d a b c (laneIdot 2 16 ua ub)
/-- `IDOT2` dispatched by the warp that acts. -/
def execIdot2 (g : Guard) (d a b c : Reg) (ua ub : Bool) (s : State) : Host.Outcome State Fault Refusal :=
  issue .normal (.idot2 g d a b c ua ub) (bodyIdot2 d a b c ua ub) s

/-- LEA (R257). -/
def bodyLea (d : Pair) (a : Pair) (b : SrcB) (sh : Nat) (sx : Bool) : Body :=
  withWarp fun x w _ m s =>
  match evalB s w x b with
  | (.ok vb, s) => putPair s w d.field m (tagAll (pairRegs x a.field ++ [vb])) fun i => laneLea sh sx (x.rd64 a i) (vb.at i)
  | (o, s) => opndEff s w m o
/-- `LEA` dispatched by the warp that acts. -/
def execLea (g : Guard) (d a : Pair) (b : SrcB) (sh : Nat) (sx : Bool) (s : State) : Host.Outcome State Fault Refusal :=
  issue .normal (.lea g d a b sh sx) (bodyLea d a b sh sx) s

/-- AND (R257). -/
def bodyAnd (d : Reg) (a : Reg) (b : SrcB) : Body :=
  body2 d a b tag2 (· &&& ·)
/-- `AND` dispatched by the warp that acts. -/
def execAnd (g : Guard) (d a : Reg) (b : SrcB) (s : State) : Host.Outcome State Fault Refusal :=
  issue .normal (.and g d a b) (bodyAnd d a b) s

/-- OR (R257). -/
def bodyOr (d : Reg) (a : Reg) (b : SrcB) : Body :=
  body2 d a b tag2 (· ||| ·)
/-- `OR` dispatched by the warp that acts. -/
def execOr (g : Guard) (d a : Reg) (b : SrcB) (s : State) : Host.Outcome State Fault Refusal :=
  issue .normal (.or g d a b) (bodyOr d a b) s

/-- XOR (R257). -/
def bodyXor (d : Reg) (a : Reg) (b : SrcB) : Body :=
  body2 d a b tag2 (· ^^^ ·)
/-- `XOR` dispatched by the warp that acts. -/
def execXor (g : Guard) (d a : Reg) (b : SrcB) (s : State) : Host.Outcome State Fault Refusal :=
  issue .normal (.xor g d a b) (bodyXor d a b) s

/-- ANDN (R257). -/
def bodyAndn (d : Reg) (a : Reg) (b : SrcB) : Body :=
  body2 d a b tag2 fun a b => a &&& ~~~b
/-- `ANDN` dispatched by the warp that acts. -/
def execAndn (g : Guard) (d a : Reg) (b : SrcB) (s : State) : Host.Outcome State Fault Refusal :=
  issue .normal (.andn g d a b) (bodyAndn d a b) s

/-- NOT (R257). -/
def bodyNot (d : Reg) (a : Reg) : Body :=
  body1 d a (~~~ ·)
/-- `NOT` dispatched by the warp that acts. -/
def execNot (g : Guard) (d a : Reg) (s : State) : Host.Outcome State Fault Refusal :=
  issue .normal (.not g d a) (bodyNot d a) s

/-- LOP3 (R257): the old D is the third source. -/
def bodyLop3 (d : Reg) (a : Reg) (b : Reg) (lut : BitVec 8) : Body :=
  body3 d a b d (laneLop3 lut)
/-- `LOP3` dispatched by the warp that acts. -/
def execLop3 (g : Guard) (d a b : Reg) (lut : BitVec 8) (s : State) : Host.Outcome State Fault Refusal :=
  issue .normal (.lop3 g d a b lut) (bodyLop3 d a b lut) s

/-- SHL (R257). -/
def bodyShl (d : Reg) (a : Reg) (b : SrcB) : Body :=
  body2 d a b tagShl laneShl
/-- `SHL` dispatched by the warp that acts. -/
def execShl (g : Guard) (d a : Reg) (b : SrcB) (s : State) : Host.Outcome State Fault Refusal :=
  issue .normal (.shl g d a b) (bodyShl d a b) s

/-- SHR (R257). -/
def bodyShr (d : Reg) (a : Reg) (b : SrcB) : Body :=
  body2 d a b tag2 laneShr
/-- `SHR` dispatched by the warp that acts. -/
def execShr (g : Guard) (d a : Reg) (b : SrcB) (s : State) : Host.Outcome State Fault Refusal :=
  issue .normal (.shr g d a b) (bodyShr d a b) s

/-- SAR (R257). -/
def bodySar (d : Reg) (a : Reg) (b : SrcB) : Body :=
  body2 d a b tag2 laneSar
/-- `SAR` dispatched by the warp that acts. -/
def execSar (g : Guard) (d a : Reg) (b : SrcB) (s : State) : Host.Outcome State Fault Refusal :=
  issue .normal (.sar g d a b) (bodySar d a b) s

/-- ROTL (R257). -/
def bodyRotl (d : Reg) (a : Reg) (b : SrcB) : Body :=
  body2 d a b tag2 laneRotl
/-- `ROTL` dispatched by the warp that acts. -/
def execRotl (g : Guard) (d a : Reg) (b : SrcB) (s : State) : Host.Outcome State Fault Refusal :=
  issue .normal (.rotl g d a b) (bodyRotl d a b) s

/-- FUNL (R257). -/
def bodyFunl (d : Reg) (a : Reg) (b : Reg) (c : Reg) : Body :=
  body3 d a b c laneFunl
/-- `FUNL` dispatched by the warp that acts. -/
def execFunl (g : Guard) (d a b c : Reg) (s : State) : Host.Outcome State Fault Refusal :=
  issue .normal (.funl g d a b c) (bodyFunl d a b c) s

/-- FUNR (R257). -/
def bodyFunr (d : Reg) (a : Reg) (b : Reg) (c : Reg) : Body :=
  body3 d a b c laneFunr
/-- `FUNR` dispatched by the warp that acts. -/
def execFunr (g : Guard) (d a b c : Reg) (s : State) : Host.Outcome State Fault Refusal :=
  issue .normal (.funr g d a b c) (bodyFunr d a b c) s

/-- POPC (R257). -/
def bodyPopc (d : Reg) (a : Reg) : Body :=
  body1 d a fun a => BitVec.ofNat 32 (popc a)
/-- `POPC` dispatched by the warp that acts. -/
def execPopc (g : Guard) (d a : Reg) (s : State) : Host.Outcome State Fault Refusal :=
  issue .normal (.popc g d a) (bodyPopc d a) s

/-- CLZ (R257). -/
def bodyClz (d : Reg) (a : Reg) : Body :=
  body1 d a fun a => BitVec.ofNat 32 (clzN 32 a.toNat)
/-- `CLZ` dispatched by the warp that acts. -/
def execClz (g : Guard) (d a : Reg) (s : State) : Host.Outcome State Fault Refusal :=
  issue .normal (.clz g d a) (bodyClz d a) s

/-- CTZ (R257). -/
def bodyCtz (d : Reg) (a : Reg) : Body :=
  body1 d a fun a => BitVec.ofNat 32 (ctzN 32 a.toNat)
/-- `CTZ` dispatched by the warp that acts. -/
def execCtz (g : Guard) (d a : Reg) (s : State) : Host.Outcome State Fault Refusal :=
  issue .normal (.ctz g d a) (bodyCtz d a) s

/-- BREV (R257). -/
def bodyBrev (d : Reg) (a : Reg) : Body :=
  body1 d a fun a => BitVec.ofNat 32 (brevN 32 a.toNat)
/-- `BREV` dispatched by the warp that acts. -/
def execBrev (g : Guard) (d a : Reg) (s : State) : Host.Outcome State Fault Refusal :=
  issue .normal (.brev g d a) (bodyBrev d a) s

/-- BFX (R259). -/
def bodyBfx (d : Reg) (a : Reg) (b : SrcB) (sx : Bool) : Body :=
  body2 d a b tag2 (laneBfx sx)
/-- `BFX` dispatched by the warp that acts. -/
def execBfx (g : Guard) (d a : Reg) (b : SrcB) (sx : Bool) (s : State) : Host.Outcome State Fault Refusal :=
  issue .normal (.bfx g d a b sx) (bodyBfx d a b sx) s

/-- BFI (R259). -/
def bodyBfi (d : Reg) (a : Reg) (b : Reg) (c : Reg) : Body :=
  body3 d a b c laneBfi
/-- `BFI` dispatched by the warp that acts. -/
def execBfi (g : Guard) (d a b c : Reg) (s : State) : Host.Outcome State Fault Refusal :=
  issue .normal (.bfi g d a b c) (bodyBfi d a b c) s

/-- PRMT (R259). -/
def bodyPrmt (d : Reg) (a : Reg) (b : Reg) (c : Reg) : Body :=
  body3 d a b c lanePrmt
/-- `PRMT` dispatched by the warp that acts. -/
def execPrmt (g : Guard) (d a b c : Reg) (s : State) : Host.Outcome State Fault Refusal :=
  issue .normal (.prmt g d a b c) (bodyPrmt d a b c) s

/-- ISETP (R260). -/
def bodyIsetp (pd : Nat) (a : Reg) (b : SrcB) (cc : IntCmp) (u : Bool) : Body :=
  bodyCmp pd a b (intCmp cc u)
/-- `ISETP` dispatched by the warp that acts. -/
def execIsetp (g : Guard) (pd : Nat) (a : Reg) (b : SrcB) (cc : IntCmp) (u : Bool) (s : State) : Host.Outcome State Fault Refusal :=
  issue .normal (.isetp g pd a b cc u) (bodyIsetp pd a b cc u) s

/-- SEL (Table 12-6): the predicate chooses, and the result is general (R76). -/
def bodySel (d : Reg) (a : Reg) (b : SrcB) (pc : Nat) : Body :=
  withWarp fun x w _ m s =>
  match evalB s w x b with
  | (.ok vb, s) => putReg s w d.field m .general fun i => if (x.pred pc).getLsbD i then x.rd a i else vb.at i
  | (o, s) => opndEff s w m o
/-- `SEL` dispatched by the warp that acts. -/
def execSel (g : Guard) (d a : Reg) (b : SrcB) (pc : Nat) (s : State) : Host.Outcome State Fault Refusal :=
  issue .normal (.sel g d a b pc) (bodySel d a b pc) s

/-- MOV (R257): the tag of the source is copied (Table 4-2). -/
def bodyMov (d : Reg) (b : SrcB) : Body :=
  withWarp fun x w _ m s =>
  match evalB s w x b with
  | (.ok vb, s) => putReg s w d.field m vb.tag vb.at
  | (o, s) => opndEff s w m o
/-- `MOV` dispatched by the warp that acts. -/
def execMov (g : Guard) (d : Reg) (b : SrcB) (s : State) : Host.Outcome State Fault Refusal :=
  issue .normal (.mov g d b) (bodyMov d b) s

/-- MOVI (R261). -/
def bodyMovi (d : Reg) (x : Word) : Body :=
  withWarp fun _ w _ m s => putReg s w d.field m .uniform fun _ => x
/-- `MOVI` dispatched by the warp that acts. -/
def execMovi (g : Guard) (d : Reg) (x : Word) (s : State) : Host.Outcome State Fault Refusal :=
  issue .normal (.movi g d x) (bodyMovi d x) s

/-- MOVU (R261): the value of the lowest active lane. -/
def bodyMovu (d : Reg) (b : Reg) : Body :=
  withWarp fun x w _ m s => putReg s w d.field m .uniform fun _ => x.rd b ((lowest m).getD 0)
/-- `MOVU` dispatched by the warp that acts. -/
def execMovu (g : Guard) (d b : Reg) (s : State) : Host.Outcome State Fault Refusal :=
  issue .normal (.movu g d b) (bodyMovu d b) s

end Sys2Proof.Machine
end

