-- ==== Sys2Proof/Machine/Sketch.lean ====
section
/-! DEFINITION. Sketch regions: descriptors and their checks (R129 to R132, R332), the procedures of the four types
(R135 to R144), the Weighers' accesses (R134, R135) and the single steps of a sketch operation (R334 to R336, R339). -/

namespace Sys2Proof.Machine

/-! ### Descriptors (Tables 7-1 to 7-3) -/

def dType (l : List Byte) : Nat := bytesNat l 0 1
def dHver (l : List Byte) : Nat := bytesNat l 1 1
def dHome (l : List Byte) : Nat := bytesNat l 2 1
def dFlags (l : List Byte) : Nat := bytesNat l 3 1
def dParams (l : List Byte) : Nat := bytesNat l 4 4
def dSeed (l : List Byte) : Nat := bytesNat l 8 8
def dCbase (l : List Byte) : Nat := bytesNat l 16 8
def dCons (l : List Byte) : Bool := field (dFlags l) 0 1 == 1
def dCntf (l : List Byte) : Bool := field (dFlags l) 1 1 == 1
def dDet (l : List Byte) : Bool := field (dFlags l) 4 1 == 1
/-- FSK parameters: counter bytes, k, d, and the counter maximum. -/
def fskCb (l : List Byte) : Nat := if field (dParams l) 9 1 = 1 then 4 else 2
def fskK (l : List Byte) : Nat := field (dParams l) 4 5
def fskD (l : List Byte) : Nat := field (dParams l) 0 4
/-- MFL parameters. -/
def mflKb (l : List Byte) : Nat := field (dParams l) 8 5
def mflJ (l : List Byte) : Nat := field (dParams l) 0 5
/-- DCN parameter. -/
def dcnP (l : List Byte) : Nat := field (dParams l) 0 5
/-- QSM parameters, and the number of buckets of a sign. -/
def qsmEmax (l : List Byte) : Nat := field (dParams l) 16 8
def qsmEmin (l : List Byte) : Nat := field (dParams l) 8 8
def qsmB (l : List Byte) : Nat := field (dParams l) 0 3
def qsmNb (l : List Byte) : Nat := (qsmEmax l - qsmEmin l + 1) * 2 ^ qsmB l

/-- Whether PARAMS lies within Table 7-3. -/
def paramsOk (l : List Byte) : Bool :=
  let p := dParams l
  match dType l with
  | 1 => p < 2 ^ 10 && 2 ≤ fskK l && fskK l ≤ 24 && 1 ≤ fskD l && fskD l ≤ 8
  | 2 => p < 2 ^ 13 && field p 5 3 == 0 && 1 ≤ mflKb l && mflKb l ≤ 16 && mflJ l ≤ 26
  | 3 => p < 32 && 4 ≤ dcnP l && dcnP l ≤ 18
  | 4 => p < 2 ^ 24 && field p 3 5 == 0 && 2 ≤ qsmB l && 1 ≤ qsmEmin l && qsmEmin l ≤ qsmEmax l && qsmEmax l ≤ 254
  | _ => false

/-- Check 3 of R332. -/
def descOk (l : List Byte) : Bool :=
  1 ≤ dType l && dType l ≤ 4 && dHver l == 1 && dHome l ≤ 1 && field (dFlags l) 5 3 == 0 &&
  (!dCons l || dType l == 1) && (!dCntf l || dType l == 2) && paramsOk l && dCbase l % 128 == 0 &&
  bytesNat l 0x38 8 == 0

/-- Bytes of the counter array (Table 7-4), rounded up to a multiple of 64. -/
def csize (l : List Byte) : Nat :=
  let n := match dType l with
    | 1 => fskD l * 2 ^ fskK l * fskCb l
    | 2 => 64 * 2 ^ mflJ l
    | 3 => 8 * ((2 ^ dcnP l + 9) / 10)
    | _ => 4 * (2 * qsmNb l + 6)
  (n + 63) / 64 * 64

/-- The counter maximum of a region (R135). -/
def cmaxOf (l : List Byte) : Nat :=
  match dType l with
  | 1 => 2 ^ (8 * fskCb l) - 1
  | 2 => 15
  | _ => 2 ^ 32 - 1

/-! ### Index functions (R133, R136, R138, R140, R142) -/

def topBits (h n : Nat) : Nat := if n = 0 then 0 else h / 2 ^ (64 - n)
def rowSeed (l : List Byte) (i : Nat) : Nat := dSeed l ^^^ (i * 0x71F32B8D0E65A9C1 % 2 ^ 64)
def fskIdx (l : List Byte) (key i : Nat) : Nat := topBits (qh64 key (rowSeed l i)) (fskK l)
/-- The byte offset of counter (i, x) of an FSK. -/
def fskOff (l : List Byte) (i x : Nat) : Nat := fskCb l * (i * 2 ^ fskK l + x)
def mflPos (l : List Byte) (key i : Nat) : Nat :=
  let h := qh64 key (dSeed l ^^^ 1)
  (h % 512 + i * ((h / 512 % 512) ||| 1)) % 512
def mflBlock (l : List Byte) (key : Nat) : Nat := topBits (qh64 key (dSeed l)) (mflJ l)
def dcnIdx (l : List Byte) (key : Nat) : Nat := topBits (qh64 key (dSeed l)) (dcnP l)
def dcnRank (l : List Byte) (key : Nat) : Nat :=
  min (clzN 64 (qh64 key (dSeed l) * 2 ^ dcnP l % 2 ^ 64) + 1) (65 - dcnP l)
/-- The slot of an FP32 value; none for a NaN. -/
def qsmSlot (l : List Byte) (x : Nat) : Option Nat :=
  let s := field x 31 1
  let e := field x 23 8
  let m := field x 0 23
  let nb := qsmNb l
  if e = 255 && m != 0 then none
  else if e = 0 && m = 0 then some (nb + 2)
  else if e < qsmEmin l then some (if s = 1 then nb + 1 else nb + 3)
  else if e > qsmEmax l then some (if s = 1 then 0 else 2 * nb + 4)
  else
    let g := (e - qsmEmin l) * 2 ^ qsmB l + m / 2 ^ (23 - qsmB l)
    some (if s = 1 then nb - g else nb + 4 + g)
/-- The FP32 value of a slot (R142), exact. -/
def qsmValue (l : List Byte) (slot : Nat) : Nat :=
  let nb := qsmNb l
  let f := fun (neg : Bool) (n d : Nat) (k : Int) => fmtF32.round .rn false ((Num.fin neg n d).scale k)
  if slot = nb + 2 then 0
  else if slot = nb + 1 || slot = nb + 3 then f (slot == nb + 1) 1 1 ((qsmEmin l : Int) - 128)
  else if slot = 0 || slot = 2 * nb + 4 then f (slot == 0) 1 1 ((qsmEmax l : Int) - 126)
  else
    let neg := slot ≤ nb
    let g := if neg then nb - slot else slot - (nb + 4)
    let e := qsmEmin l + g / 2 ^ qsmB l
    let t := g % 2 ^ qsmB l
    f neg ((2 ^ qsmB l + t) * (2 ^ (qsmB l + 1) + 1)) (2 ^ qsmB l * 2 ^ (qsmB l + 1)) ((e : Int) - 127)
/-- The byte offset of a slot's counter, or of the NaN counter. -/
def qsmOff : Option Nat → Nat
  | none => 0
  | some s => 4 * (s + 1)

/-! ### Counters (R135) -/

/-- `counter_update`: the new value, and whether a saturation or an underflow event occurred. -/
def counterUpdate (c : Nat) (delta : Int) (cmax : Nat) : Nat × Bool × Bool :=
  if delta = 0 then (c, false, false)
  else if c = cmax then (c, true, false)
  else
    let x := (c : Int) + delta
    if x > cmax then (cmax, true, false)
    else if x < 0 then (0, false, true)
    else (x.toNat, false, false)

/-- Nibble q of a counting block, and a block with it changed. -/
def nibble (blk : List Byte) (q : Nat) : Nat := field (bytesNat blk (q / 2) 1) (4 * (q % 2)) 4
def setNibble (blk : List Byte) (q v : Nat) : List Byte :=
  blk.set (q / 2) (BitVec.ofNat 8 (setField (bytesNat blk (q / 2) 1) (4 * (q % 2)) 4 v))
/-- Bit q of a plain block. -/
def blkBit (blk : List Byte) (q : Nat) : Bool := field (bytesNat blk (q / 8) 1) (q % 8) 1 == 1
def setBlkBit (blk : List Byte) (q : Nat) : List Byte :=
  blk.set (q / 8) (BitVec.ofNat 8 (bytesNat blk (q / 8) 1 ||| 2 ^ (q % 8)))

/-- Events of an update, summed: saturations, underflows with the byte of the unit each fell in, and whether a counter stood
at cmax before or after. -/
structure Ev where
  sats : Nat
  unds : Nat
  low : List Nat
  top : Bool
  deriving DecidableEq, Repr

def Ev.none : Ev := { sats := 0, unds := 0, low := [], top := false }
def Ev.add (a b : Ev) : Ev := { sats := a.sats + b.sats, unds := a.unds + b.unds, low := a.low ++ b.low, top := a.top || b.top }
/-- Events at a byte of a larger unit. -/
def Ev.shift (e : Ev) (k : Nat) : Ev := { e with low := e.low.map (k + ·) }
/-- A counter update with its events. -/
def updEv (c : Nat) (delta : Int) (cmax : Nat) : Nat × Ev :=
  let r := counterUpdate c delta cmax
  (r.1, { sats := bit r.2.1, unds := bit r.2.2, low := if r.2.2 then [0] else [], top := delta != 0 && (c == cmax || r.1 == cmax) })

/-- The kb counters of a key in a counting block updated. -/
def nibblesUpd (l : List Byte) (key : Nat) (delta : Int) (blk : List Byte) : List Byte × Ev :=
  (List.range (mflKb l)).foldl (fun (a : List Byte × Ev) i =>
    let q := mflPos l key i % 128
    let r := updEv (nibble a.1 q) delta 15
    (setNibble a.1 q r.1, a.2.add (r.2.shift (q / 2)))) (blk, Ev.none)

namespace State

/-! ### The Weighers (R134) -/

/-- A line of a memory-homed region out of its home slice: a dirty copy reaches memory first, so that no store is
lost (R134, R151). -/
def dropHome (s : State) (pa key : Nat) : State :=
  let slice := s.mem.l2Home pa
  match s.mem.l2Find slice (pa / 128) key with
  | none => s
  | some e => s.setMem ((s.mem.l2Write e).l2Drop slice (pa / 128) key)

/-- Bytes of a counter array, within one line, read at their home. -/
def weighRead (s : State) (home pa key cls n : Nat) : List Byte × State :=
  if home = 1 && hasHome pa then
    let s := s.dropHome pa key
    ((List.range n).map fun k => s.mem.hbmGet (pa / 128) key (pa % 128 + k), s)
  else s.homeRead pa key cls n

/-- Bytes of a counter array, within one line, written at their home. -/
def weighWrite (s : State) (home pa key cls : Nat) (bs : List Byte) : State :=
  if home = 1 && hasHome pa then
    let s := s.dropHome pa key
    s.setMem (s.mem.hbmPatch (pa / 128) key (bs.mapIdx fun k b => (pa % 128 + k, b)))
  else s.homeWrite pa key cls bs

/-- A number at a place of a counter array, and its new value. -/
def weighNat (s : State) (home : Nat) (l : Loc) (n : Nat) : Nat × State :=
  match l with
  | .mem pa key cls => let (bs, s) := s.weighRead home pa key cls n; (leNat bs, s)
  | _ => (0, s)
def weighPut (s : State) (home : Nat) (l : Loc) (n v : Nat) : State :=
  match l with
  | .mem pa key cls => s.weighWrite home pa key cls (leBytes n v)
  | _ => s

/-- A byte offset added to a place. -/
def locAdd (l : Loc) (k : Nat) : Loc :=
  match l with
  | .mem pa key cls => .mem (pa + k) key cls
  | .remote f a key => .remote f (a + k) key
  | .sc a => .sc (a + k)
  | .cl a => .cl (a + k)
  | .ch a => .ch (a + k)
  | .win d key o => .win d key (o + k)

/-- A descriptor field changed at the descriptor's home. -/
def descNat (s : State) (d : Loc) (off n : Nat) : Nat × State := s.weighNat 0 (locAdd d off) n
def descPut (s : State) (d : Loc) (off n v : Nat) : State := s.weighPut 0 (locAdd d off) n v

/-- The events of an update recorded in the descriptor (R135); SATCNT and UNDCNT wrap modulo 2^64 (log 95). -/
def recordEv (s : State) (d : Loc) (e : Ev) : State :=
  let s := if e.sats = 0 then s
    else
      let (n, s) := s.descNat d 0x28 8
      let (f, s) := (s.descPut d 0x28 8 ((n + e.sats) % 2 ^ 64)).descNat d 3 1
      s.descPut d 3 1 (setField f 3 1 1)
  if e.unds = 0 then s
  else
    let (n, s) := s.descNat d 0x30 8
    let (f, s) := (s.descPut d 0x30 8 ((n + e.unds) % 2 ^ 64)).descNat d 3 1
    s.descPut d 3 1 (setField f 2 1 0)

/-- N raised, saturating, or lowered, clamping at 0 with an underflow (R132, R135). -/
def bumpN (s : State) (d : Loc) (wt : Nat) (up : Bool) : Ev × State :=
  let (n, s) := s.descNat d 0x18 8
  if up then (Ev.none, if wt = 0 then s else s.descPut d 0x18 8 (min (n + wt) (2 ^ 64 - 1)))
  else if wt > n then
    let e := { Ev.none with unds := 1, low := [0] }
    (e, (s.descPut d 0x18 8 0).recordEv d e)
  else (Ev.none, if wt = 0 then s else s.descPut d 0x18 8 (n - wt))

/-- One counter of n bytes updated at its home. -/
def bumpCtr (s : State) (d : Loc) (home : Nat) (l : Loc) (n : Nat) (delta : Int) (cmax : Nat) : Ev × State :=
  let (c, s) := s.weighNat home l n
  let r := updEv c delta cmax
  (r.2, (if r.1 = c then s else s.weighPut home l n r.1).recordEv d r.2)

end State

/-! ### Operations (R334, R336, R339) -/

/-- Check 4 of R332: whether a type supports an operation, `.w` apart. -/
def skSupports (l : List Byte) : SkDo → Bool
  | .ins => true
  | .del => (dType l == 1 && !dCons l) || (dType l == 2 && dCntf l) || dType l == 4
  | .qry => dType l == 1 || dType l == 2 || dType l == 4
  | .card => dType l == 3
  | .rank => dType l == 4
  | .qtl => dType l == 4
  | .stat _ => true

/-- Check 5 of R332: whether deterministic mode or the region's DET flag forbids an operation (R155, R156). -/
def skForbidden (l : List Byte) (det : Bool) (o : SkDo) : Bool :=
  (det || dDet l) && (o == .del || (o == .ins && dType l == 1 && dCons l))

/-- The counters, as byte offsets and lengths, that an operation on a key touches, in the order of its steps: rows or slots
ascending (log 96). -/
def skTouch (l : List Byte) (o : SkDo) (key : Nat) : List (Nat × Nat) :=
  match o with
  | .stat _ => []
  | .card => (List.range ((2 ^ dcnP l + 9) / 10)).map fun k => (8 * k, 8)
  | .qtl => (List.range (2 * qsmNb l + 5)).map fun k => (qsmOff (some k), 4)
  | .rank => match qsmSlot l key with
    | none => []
    | some k => (List.range (k + 1)).map fun k => (qsmOff (some k), 4)
  | _ => match dType l with
    | 1 => (List.range (fskD l)).map fun i => (fskOff l i (fskIdx l key i), fskCb l)
    | 2 => [(64 * mflBlock l key, 64)]
    | 3 => [(8 * (dcnIdx l key / 10), 8)]
    | _ => [(qsmOff (qsmSlot l (key % 2 ^ 32)), 4)]

/-- The places that an operation of a lane reads or writes, with their lengths: its counters and its descriptor. -/
def skPlaces (l : SkLane) : List (Loc × Nat) := (l.dloc, 64) :: l.cols.zip ((skTouch l.snap l.act l.key).map (·.2))

/-- Whether a lane's operation changes counters. -/
def updates (d : SkDo) : Bool := d == .ins || d == .del

/-- Whether a lane's operation has yet to perform at some counter. -/
def skOpen (q : SkLane) : Bool := q.done < q.steps

/-- The virtual address of the unit that step `k` of a lane touches, or of N (R414). -/
def skTouched (l : SkLane) (k : Nat) : Nat :=
  let t := skTouch l.snap l.act l.key
  let n := if l.act = .ins then k - 1 else k
  if (l.act = .ins && k = 0) || (l.act = .del && k + 1 = l.steps) then l.desc + 0x18
  else (dCbase l.snap + ((t[n]?).map (·.1)).getD 0) % 2 ^ 64

/-- The steps of an operation. -/
def skSteps (l : List Byte) (o : SkDo) (key : Nat) : Nat :=
  match o with
  | .ins => if dType l = 1 && !dCons l then 1 + fskD l else 2
  | .del => if dType l = 1 then 1 + fskD l else 2
  | .card => 2 ^ dcnP l
  | o => max 1 (skTouch l o key).length

/-- One unit of an update: the counters a step changes. -/
def State.skUpdate (s : State) (x : SkLane) (up : Bool) (k : Nat) : Ev × State :=
  let l := x.snap
  let home := dHome l
  let at' := fun k => x.cols.getD k x.dloc
  match dType l with
  | 1 =>
    if dCons l then
      let cs := (List.range (fskD l)).foldl (fun (a : List Nat × State) i =>
        let (c, s) := a.2.weighNat home (at' i) (fskCb l)
        (a.1 ++ [c], s)) ([], s)
      let q := cs.1.foldl min (2 ^ 64)
      let t := q + x.wt
      (List.range (fskD l)).foldl (fun (a : Ev × State) i =>
        let (c, s) := a.2.weighNat home (at' i) (fskCb l)
        if c < t then
          let (e, s) := s.bumpCtr x.dloc home (at' i) (fskCb l) (t - c : Int) (cmaxOf l)
          (a.1.add e, s)
        else (a.1, s)) (Ev.none, cs.2)
    else s.bumpCtr x.dloc home (at' k) (fskCb l) (if up then x.wt else -(x.wt : Int)) (cmaxOf l)
  | 2 =>
    match at' 0 with
    | .mem pa key cls =>
      let (blk, s) := s.weighRead home pa key cls 64
      if dCntf l then
        let r := nibblesUpd l x.key (if up then 1 else -1) blk
        (r.2, (s.weighWrite home pa key cls r.1).recordEv x.dloc r.2)
      else
        (Ev.none, s.weighWrite home pa key cls ((List.range (mflKb l)).foldl (fun b i => setBlkBit b (mflPos l x.key i)) blk))
    | _ => (Ev.none, s)
  | 3 =>
    let (v, s) := s.weighNat home (at' 0) 8
    let p := 6 * (dcnIdx l x.key % 10)
    let r := dcnRank l x.key
    (Ev.none, if field v p 6 < r then s.weighPut home (at' 0) 8 (setField v p 6 r) else s)
  | _ => s.bumpCtr x.dloc home (at' 0) 4 (if up then 1 else -1) (2 ^ 32 - 1)

/-- What one step of a query reads. -/
def State.skReadStep (s : State) (x : SkLane) (o : SkDo) (k : Nat) : List Nat × State :=
  let l := x.snap
  let home := dHome l
  match o with
  | .stat j => let (v, s) := s.descNat x.dloc (8 * j) 8; ([if j = 7 then 0 else v], s)
  | .card =>
    let (v, s) := s.weighNat home (x.cols.getD (k / 10) x.dloc) 8
    ([field v (6 * (k % 10)) 6], s)
  | _ =>
    match x.cols[k]? with
    | none => ([], s)
    | some c =>
      if dType l = 2 then
        match c with
        | .mem pa key cls =>
          let (blk, s) := s.weighRead home pa key cls 64
          ((List.range (mflKb l)).map fun i =>
            let q := mflPos l x.key i
            if dCntf l then nibble blk (q % 128) else bit (blkBit blk q), s)
        | _ => ([], s)
      else let (v, s) := s.weighNat home c (if dType l = 1 then fskCb l else 4); ([v], s)

/-- FP64 rounding of a value, as a value. -/
def r64 (v : Num) : Num := fmtF64.value (fmtF64.round .rn false v)

/-- `dcn_estimate` over the registers (R141). -/
def dcnEstimate (regs : List Nat) : Nat :=
  let m := regs.length
  let num := fun (n : Nat) => Num.fin false n 1
  let z := regs.foldl (fun z r => r64 (z.add false (Num.fin false 1 (2 ^ r)))) (num 0)
  let v := (regs.filter fun r => r == 0).length
  let dec := fun (n d : Nat) => r64 (Num.fin false n d)
  let alpha :=
    if m = 16 then dec 673 1000
    else if m = 32 then dec 697 1000
    else if m = 64 then dec 709 1000
    else r64 ((dec 7213 10000).div (r64 ((num 1).add false (r64 ((dec 1079 1000).div (num m))))))
  let e := r64 ((r64 ((r64 (alpha.mul (num m))).mul (num m))).div z)
  let e := if e.cmp (r64 ((dec 5 2).mul (num m))) != .gt && v != 0 then r64 ((num m).mul (r64 (lnNum (r64 ((num m).div (num v))))))
    else e
  min (nearestInt e).toNat (2 ^ 64 - 1)

/-- `qsm_quantile` over the ranked slots (R143). -/
def qsmQuantile (l : List Byte) (slots : List Nat) (jq : Nat) : Nat :=
  let n := slots.foldl (· + ·) 0
  if n = 0 then 0x7FC00000
  else
    let rho := max 1 ((jq * n + 1023) / 1024)
    let rec go : List Nat → Nat → Nat → Nat
      | [], k, _ => k
      | c :: cs, k, acc => if acc + c ≥ rho then k else go cs (k + 1) (acc + c)
    qsmValue l (go slots 0 0)

/-- The answer of a query from what it read, and its SAT condition (R333, R336). -/
def skAnswer (x : SkLane) (o : SkDo) : Nat × Bool :=
  let l := x.snap
  let top := x.reads.any fun c => c == cmaxOf l
  match o with
  | .stat _ => (x.reads.headD 0, false)
  | .card => (dcnEstimate x.reads, false)
  | .rank => (x.reads.foldl (· + ·) 0, top)
  | .qtl => (qsmQuantile l x.reads (min x.key 1024), top)
  | _ =>
    match dType l with
    | 1 => let q := x.reads.foldl min (2 ^ 32); (q, q == cmaxOf l)
    | 2 => (bit (x.reads.all fun c => c != 0), dCntf l && top)
    | _ => (x.reads.headD 0, top)

/-- One step of an operation in a lane (row WEIGHER_UPDATE); `low` names the counters that it found underflowing. -/
def State.skStep (s : State) (x : SkLane) (o : SkDo) : SkLane × State :=
  let k := x.done
  let fin := fun (e : Ev) => { x with
    done := k + 1, sat := x.sat || e.top, und := x.und || e.unds != 0, low := (e.shift (skTouched x k)).low }
  match o with
  | .ins =>
    let r := if k = 0 then s.bumpN x.dloc (if dType x.snap = 1 then x.wt else 1) true else s.skUpdate x true (k - 1)
    (fin r.1, r.2)
  | .del =>
    let r := if k + 1 = skSteps x.snap o x.key then s.bumpN x.dloc (if dType x.snap = 1 then x.wt else 1) false
      else s.skUpdate x false k
    (fin r.1, r.2)
  | o =>
    let r := s.skReadStep x o k
    ({ x with done := k + 1, reads := x.reads ++ r.1 }, r.2)

end Sys2Proof.Machine
end

