-- ==== Sys2Proof/Machine/MemOps.lean ====
section
/-! DEFINITION. Accesses of lanes: addresses and checks (R104, R145, R386, R393), loads as they bind (R73, R74), and
stores, `RED`s and atomics as they perform (R75, R162, R184, R294, R296, R298). -/

namespace Sys2Proof.Machine

/-- Bytes of an access width. -/
def widthBytes : Width → Nat
  | .b8 => 1
  | .b16 => 2
  | .b32 => 4
  | .b64 => 8
  | .b128 => 16

/-- What the checks of one lane come to (R386). -/
inductive LaneRes where
  | acc (l : List Acc)
  | sk (x : SkLane)
  | fail (code addr : Nat)
  | absent (va : Nat)
  | miss (page : Nat)
  | hold
  deriving DecidableEq, Repr

namespace State

/-! ### Sketch lanes -/

/-- Whether a region is being changed as a whole, so that new operations on it wait (R148). -/
def regionBusy (s : State) (pa : Nat) : Bool :=
  s.warps.any fun x => x.2.skOps.any fun o => o.busy && o.lanes.head?.any fun l =>
    match l.dloc with
    | .mem p _ _ => p == pa
    | _ => false

/-- A descriptor read through its core's descriptor cache, which keeps only one that passes check 3 (R150, R412). -/
def descRead (s : State) (c pa key cls : Nat) : List Byte × State :=
  match amFind (s.core c).descCache (cacheKey none pa key) with
  | some l => (l, s)
  | none =>
    let (l, s) := s.homeRead pa key cls 64
    (l, if descOk l then s.modCore c fun x => { x with descCache := amSet x.descCache (cacheKey none pa key) l } else s)

/-- The counter pages that an operation touches, translated in order (check 6 of R332). -/
def touchPages (s : State) (w : WarpId) (base : Nat) (l : List (Nat × Nat)) : Except LaneRes (List Loc) × State :=
  let c := s.coreOf w
  let refused := ((s.warp? w).map Warp.refused).getD []
  l.foldl (fun (acc : Except LaneRes (List Loc) × State) (t : Nat × Nat) =>
    match acc.1 with
    | .error r => (.error r, acc.2)
    | .ok locs =>
      let va := (base + t.1) % 2 ^ 64
      match acc.2.xlate c (acc.2.ctxOf w.team) va .load with
      | (.fail code, s) => (.error (.fail code va), s)
      | (.absent, s) => (.error (if refused.contains (pageOf va) then .fail 0x10 va else .absent va), s)
      | (.ok e, s) =>
        if pteType e.leaf ≠ 0 || !pteW e.leaf || pteTwin e.leaf = 1 then (.error (.fail 0x21 va), s)
        else (.ok (locs ++ [locOf e va]), s)) (.ok [], s)

/-- Checks 3 to 6 of R332 for one lane, and its snapshot. `addr` is what TADDR names, `wmod` the `.w` modifier. -/
def prepSk (s : State) (w : WarpId) (lane addr pa key cls : Nat) (o : List Byte → SkDo) (k : List Byte → Nat) (wt : Nat)
    (wmod : Bool) : LaneRes × State :=
  if s.regionBusy pa || s.keyWaits key then (.hold, s)
  else
    let (l, s) := s.descRead (s.coreOf w) pa key cls
    let act := o l
    let det := ((s.gridOf? w.team).map fun g => g.2.det).getD false
    match act with
    | .stat _ =>
      if !descOk l then (.fail 0x21 addr, s)
      else (.sk { lane := lane, desc := addr, dloc := .mem pa key cls, dcls := cls, snap := l, key := 0, wt := 0, act := act,
                  steps := 1, done := 0, reads := [], sat := false, und := false, cols := [] }, s)
    | _ =>
      if !descOk l then (.fail 0x21 addr, s)
      else if !skSupports l act || (wmod && dType l != 1) then (.fail 0x20 addr, s)
      else if skForbidden l det act then (.fail 0x50 addr, s)
      else
        match s.touchPages w (dCbase l) (skTouch l act (k l)) with
        | (.error r, s) => (r, s)
        | (.ok cols, s) =>
          (.sk { lane := lane, desc := addr, dloc := .mem pa key cls, dcls := cls, snap := l, key := k l, wt := wt, act := act,
                 steps := skSteps l act (k l), done := 0, reads := [], sat := false, und := false, cols := cols }, s)

/-- The operation that a plain access of n bytes at offset `o` makes of a window of a type, if Table 7-6 gives one. -/
def windowDo (l : List Byte) (store : Bool) (n o : Nat) : Option SkDo :=
  match dType l with
  | 1 => if o % 8 = 0 then some (if store then .ins else .qry) else none
  | 2 => if o % 8 = 0 then some (if store then .ins else .qry) else none
  | 3 => some (if store then .ins else .card)
  | 4 => if n ≠ 4 then none else if store then some .ins else if o / 4 ≤ 1024 then some .qtl else none
  | _ => none

/-- A window access of a lane (R145): `v` is the value stored. -/
def windowLane (s : State) (w : WarpId) (lane ea : Nat) (e : Tlb) (store : Bool) (n v : Nat) : LaneRes × State :=
  match locOf e ea with
  | .win pa key o =>
    if n > 8 then (.fail 0x16 ea, s)
    else if s.regionBusy pa || s.keyWaits key then (.hold, s)
    else
      let (l, s) := s.descRead (s.coreOf w) pa key (pteCls e.leaf)
      if !descOk l then (.fail 0x21 ea, s)
      else
        match windowDo l store n o with
        | none => (.fail 0x16 ea, s)
        | some act =>
          let key' := match dType l with
            | 3 => v
            | 4 => if store then v else o / 4
            | _ => o / 8
          s.prepSk w lane ea pa key (pteCls e.leaf) (fun _ => act) (fun _ => key') v false
  | _ => (.fail 0x16 ea, s)

/-! ### The checks of a lane (R386) -/

/-- The size of a 32-bit space for a team (R393). -/
def spaceSize (s : State) (t : Nat) (sp : Space) : Nat :=
  match s.gridOf? t with
  | none => 0
  | some (_, g) =>
    match sp with
    | .sc => g.vscr
    | .ln => g.vscr / 32
    | .cl => g.clm
    | .ch => g.chsSize
    | .gl => 2 ^ 57

/-- The accesses of a lane in a 32-bit space: one, or in `.ln` one for each word (R106). -/
def scratchAccs (sp : Space) (lane ea n : Nat) : List Acc :=
  match sp with
  | .ln =>
    if n ≤ 4 then [{ lane := lane, ea := ea, loc := .sc (lnToSc lane ea), len := n }]
    else (List.range (n / 4)).map fun k => { lane := lane, ea := ea + 4 * k, loc := .sc (lnToSc lane (ea + 4 * k)), len := 4 }
  | .cl => [{ lane := lane, ea := ea, loc := .cl ea, len := n }]
  | .ch => [{ lane := lane, ea := ea, loc := .ch ea, len := n }]
  | _ => [{ lane := lane, ea := ea, loc := .sc ea, len := n }]

/-- The scratch page of a place, if it is in the team's virtual scratch. -/
def pageAt (s : State) (t : Nat) (l : Loc) : Option Nat :=
  match l with
  | .sc a => some (a / 2048)
  | .cl a => some (s.scPages t + a / 2048)
  | _ => none

/-- A place's byte of the whole virtual scratch. -/
def scrByte (s : State) (t : Nat) (l : Loc) : Option Nat :=
  match l with
  | .sc a => some a
  | .cl a => some (s.scrIndex t true a)
  | _ => none

/-- The checks of one lane of an access of n bytes at `ea`; `win` gives what a window access does. -/
def laneCheck (s : State) (w : WarpId) (sp : Space) (store : Bool) (n lane ea : Nat) (win : Option Nat) : LaneRes × State :=
  let c := s.coreOf w
  if ea % n ≠ 0 then (.fail 0x13 ea, s)
  else
    match sp with
    | .gl =>
      match s.xlate c (s.ctxOf w.team) ea (if store then .store else .load) with
      | (.fail code, s) => (.fail code ea, s)
      | (.absent, s) =>
        (if (((s.warp? w).map Warp.refused).getD []).contains (pageOf ea) then .fail 0x10 ea else .absent ea, s)
      | (.ok e, s) =>
        if pteType e.leaf = 2 then
          match win with
          | none => (.fail 0x16 ea, s)
          | some v => s.windowLane w lane ea e store n v
        else if store && pteType e.leaf = 0 && pteTwin e.leaf = 1 then (.fail 0x15 ea, s)
        else (.acc [{ lane := lane, ea := ea, loc := locOf e ea, len := n }], s)
    | _ =>
      if ea + n > s.spaceSize w.team sp then (.fail 0x14 ea, s)
      else
        let l := scratchAccs sp lane ea n
        match (l.filterMap fun a => s.pageAt w.team a.loc).find? fun p => !s.pageReady w.team p c with
        | some p => (.miss p, s)
        | none => (.acc l, s)

/-- The results of the lanes of a mask, ascending. -/
def laneChecks (s : State) (m : Mask) (f : Nat → State → LaneRes × State) : List (Nat × LaneRes) × State :=
  (laneList m).foldl (fun (acc : List (Nat × LaneRes) × State) i =>
    let (r, s) := f i acc.2
    (acc.1 ++ [(i, r)], s)) ([], s)

end State

/-- The lanes that completed. -/
def doneLanes (l : List (Nat × LaneRes)) : Mask :=
  maskOf fun i => l.any fun r => r.1 == i && match r.2 with | .acc _ => true | .sk _ => true | _ => false

/-- What becomes of an instruction whose lanes were checked (R368, R385 to R387, R404): `m` the lanes checked, `did` whether
any lane has been committed; `s` already holds what the completed lanes of instruction `id` leave behind. A fault outranks a
park, and a park outranks a wait. -/
def laneOutcome (s : State) (w : WarpId) (id : Nat) (m : Mask) (did store : Bool) (l : List (Nat × LaneRes)) : Eff :=
  let rest := m &&& ~~~(doneLanes l)
  let fails := l.filterMap fun r => match r.2 with | .fail code a => some (r.1, code, a) | _ => none
  let absents := l.filterMap fun r => match r.2 with | .absent va => some va | _ => none
  let misses := l.filterMap fun r => match r.2 with | .miss p => some p | _ => none
  match fails with
  | (lane, code, a) :: _ => .trap s { Trap.at code rest a with lane := lane } did
  | [] =>
    if !absents.isEmpty then
      let pages := absents.foldl (fun (p : List (Nat × Nat × Bool)) va =>
        if p.any fun q => q.1 == State.pageOf va then p else p ++ [(State.pageOf va, va, store)]) []
      .park s rest pages did
    else if rest = 0 then .done s
    else .wait (misses.foldl (fun s p => s.queueMiss w.team p (s.coreOf w) w.widx id) s)

namespace State

/-! ### Loads (R73, R74, R293) -/

/-- The register words of a loaded value: narrow ones zero-extended into one word. -/
def valueWords (dsts : Nat) (v : List Byte) : List Word := (List.range dsts).map fun k => BitVec.ofNat 32 (bytesNat v (4 * k) 4)

/-- The lane's word of each destination replaced. -/
def putLane (vals : List VReg) (lane : Nat) (ws : List Word) : List VReg :=
  (vals.zip ws).map fun p => { p.1 with words := p.1.words.set lane p.2 }

/-- The contents that a load's destinations start from: the old ones, tagged general. -/
def loadVals (x : Warp) (dsts : List Nat) : List VReg := dsts.map fun d => { x.reg d with tag := .general }

/-- The byte keys of an access, so that two accesses overlap when they share one. -/
def accKeys (s : State) (t : Nat) (a : Acc) : List (Nat × Nat) :=
  (List.range a.len).map fun k =>
    match a.loc with
    | .mem pa key _ => (1 + key, pa + k)
    | .remote f ad key => (5000 + f * 4096 + key, ad + k)
    | .ch b => (0, 2 ^ 40 + b + k)
    | .win d _ o => (0, 2 ^ 50 + d + o + k)
    | l => (0, ((s.scrByte t l).getD 0) + k)

def overlap (s : State) (t : Nat) (a b : Acc) : Bool := (s.accKeys t a).any fun k => (s.accKeys t b).contains k

/-- Whether an insert or deletion of the warp older than `id` has yet to change a byte of an access, which keeps its place
after it (R160). -/
def skWriting (s : State) (t : Nat) (x : Warp) (id : Nat) (a : Acc) : Bool :=
  x.skOps.any fun k => k.id < id && k.lanes.any fun q => skOpen q && updates q.act &&
    (skPlaces q).any fun p => s.overlap t { lane := 0, ea := 0, loc := p.1, len := p.2 } a

/-- Whether a lane of a load has asked another package for its bytes. -/
def asked (s : State) (w : WarpId) (id lane : Nat) : Bool :=
  s.fab.reqs.any fun r => r.owner == .load w id && r.lanes.any fun k => k.1 == lane

/-- Younger loads that completed early and have bound, or asked for, a byte of accesses that execute only now, with everything after them,
undone: the warp dispatches again from the first of them (R74: accesses of one warp to one byte keep program order). -/
def squash (s : State) (w : WarpId) (id : Nat) (accs : List Acc) : State :=
  match s.warp? w with
  | none => s
  | some x =>
    let hit := fun (e : WEntry) => e.seq > id && x.loads.any fun l => l.id == e.seq &&
      l.accs.any fun a => (l.bound.getLsbD a.lane || s.asked w l.id a.lane) && accs.any fun b => s.overlap w.team a b
    match x.window.find? hit with
    | none => s
    | some e =>
      s.setWarp w { x with
        window := x.window.filter fun f => f.seq < e.seq
        loads := x.loads.filter fun l => l.id < e.seq
        ctr := (x.window.filter fun f => e.seq ≤ f.seq).foldl (fun c f => c.lower (x.openCounts countersOf f)) x.ctr
        fr := e.frontier
        cursor := some e.cursor }

/-- A load's operation with more completed lanes. -/
def growLoad (s : State) (w : WarpId) (id : Nat) (dsts : List Nat) (acq : Option Scope) (accs : List Acc) (lanesOn : Mask) : State :=
  (s.squash w id accs).modWarp w fun x =>
    match x.loads.find? (fun l => l.id == id) with
    | some _ => { x with loads := x.loads.map fun (l : LoadOp) =>
        if l.id = id then { l with accs := l.accs ++ accs, need := l.need ||| lanesOn } else l }
    | none =>
      let l : LoadOp := { id := id, dsts := dsts, vals := loadVals x dsts, accs := accs, need := lanesOn, bound := 0,
                          retired := false, acq := acq, sig := 0 }
      { x with loads := x.loads ++ [l] }

/-- A value bound in a lane of a load, and the load committed once it has every lane and has retired. -/
def bindLane (s : State) (w : WarpId) (id lane : Nat) (v : List Byte) (g : Sig) : State :=
  s.modWarp w fun x => { x with loads := x.loads.map fun (l : LoadOp) =>
    if l.id = id then
      { l with vals := putLane l.vals lane (valueWords l.dsts.length v), bound := l.bound ||| laneBit lane, sig := l.sig ||| g }
    else l }

/-- Whether a load has completed in every active lane: it has retired, or its entry has completed in the window. -/
def loadWhole (x : Warp) (l : LoadOp) : Bool := l.retired || x.window.any fun e => e.seq == l.id && e.result == .load

/-- A load that has bound in every lane: its acquire performs (R296, R298) and `ld` falls, and once it has retired its
registers are ready (R73). -/
def finishLoad (s : State) (w : WarpId) (id : Nat) : State :=
  match s.warp? w with
  | none => s
  | some x =>
    match x.loads.find? (fun l => l.id == id) with
    | none => s
    | some l =>
      if !loadBound l || !loadWhole x l then s
      else
        let s := if l.acq.isSome then
            (s.acquire w l.sig).modWarp w fun x => { x with loads := x.loads.map fun (k : LoadOp) =>
              if k.id = id then { k with acq := none } else k }
          else s
        if !l.retired then s.modWarp w fun x =>
          { x with
            loads := x.loads.map fun (k : LoadOp) => if k.id = id then { k with fallen := true } else k
            ctr := lowerLd l x.ctr }
        else (s.modWarp w fun x =>
          { commitRegs x id (l.dsts.zip l.vals) with
            loads := x.loads.filter fun (k : LoadOp) => k.id != id
            ctr := lowerLd l x.ctr }).freeBank w

/-- Whether an operation that holds a scoreboard entry waits for an older access of its own warp: a tile store for older loads
(R75), a copy while older writes, or acquires, have yet to come before its source reads (step 3 of R303). Its entry then does
not hold the warp's older accesses, or neither could go on (log 92). -/
def sbWaits (x : Warp) (e : Sbd) : Bool :=
  x.tileOps.any (fun o => o.id == e.id) || x.stores.any (fun o => o.id < e.id && o.todo != 0) ||
    x.loads.any fun l => l.id < e.id && l.acq.isSome

/-- Whether a scoreboard entry of the team covers a byte of a range of its virtual scratch, for an access `id` of a
warp (R170). -/
def sbCovers (s : State) (w : WarpId) (id b n : Nat) : Bool :=
  s.mem.cores.any fun c => c.2.scoreboard.any fun e =>
    e.team == w.team && e.lo < b + n && b < e.hi &&
      !(e.warp == w.widx && (id == e.id || (id < e.id && (s.warp? w).any fun x => sbWaits x e)))

/-- Whether a scoreboard entry holds a scratch access. -/
def sbHeld (s : State) (w : WarpId) (id : Nat) (a : Acc) : Bool :=
  match s.scrByte w.team a.loc with
  | none => false
  | some b => s.sbCovers w id b a.len

/-- Whether a store's lane has yet to perform, or to be sent to another package, where a read of the line follows it (R180). -/
def storeOpen (o : StoreOp) (q : StAcc) : Bool := o.todo.getLsbD q.acc.lane

/-- The bytes that older stores of the warp, not yet performed, give a load; none where it must wait: an older atomic
on a byte, or an acquire (R74). The youngest older store of a byte decides, its highest lane having won (R294). -/
def forward (s : State) (x : Warp) (t id : Nat) (a : Acc) (acq : Bool) : Option (List (Option Byte)) :=
  let older := (x.stores.filter fun o => o.id < id && o.accs.any (storeOpen o)).reverse
  let keys := s.accKeys t a
  keys.foldl (fun (acc : Option (List (Option Byte))) k =>
    match acc with
    | none => none
    | some l =>
      let hit := older.findSome? fun o =>
        (o.accs.find? fun q => storeOpen o q && (s.accKeys t q.acc).contains k).map fun q => (o, q)
      match hit with
      | none => some (l ++ [none])
      | some (o, _) =>
        if acq then none
        else
          match o.kind with
          | .plain | .ordered | .release =>
            let b := o.accs.findSome? fun q =>
              if storeOpen o q then
                (q.bytes.find? fun b => (s.accKeys t q.acc)[b.1]? == some k).map (·.2)
              else none
            some (l ++ [b])
          | _ => none) (some [])

/-- A byte list with forwarded bytes put over it. -/
def overlay (base : List Byte) (f : List (Option Byte)) : List Byte := (base.zip f).map fun p => p.2.getD p.1

/-- The bytes of the chip scratchpad of a team's grid. -/
def chRead (s : State) (t a n : Nat) : List Byte :=
  match s.gridOf? t with
  | none => []
  | some (_, g) => (List.range n).map fun k => amGet 0 g.chs (a + k)
def chPatch (s : State) (t a : Nat) (patch : List (Nat × Byte)) : State :=
  match s.gridOf? t with
  | none => s
  | some (i, g) => s.setGrid i { g with chs := patch.foldl (fun m b => amPut 0 m (a + b.1) b.2) g.chs }

/-- The signature that an acquire of a place receives (R163, R167, R168). -/
def acqSig (s : State) (t : Nat) (l : Loc) : Sig × State :=
  match l with
  | .mem pa _ _ => s.sigLookup pa
  | .ch a =>
    match s.gridOf? t with
    | none => (0, s)
    | some (i, g) => let (sg, st) := g.chipSig.lookup (a / 32); (sg, s.setGrid i { g with chipSig := st })
  | .remote _ _ _ => (0, s)
  | l =>
    match s.team? t, s.scrByte t l with
    | some tm, some b => let (sg, st) := tm.scrSig.lookup (b / 32); (sg, s.setTeam t { tm with scrSig := st })
    | _, _ => (0, s)

/-- A release's signature left at the place it writes. -/
def relSig (s : State) (t : Nat) (l : Loc) (g : Sig) : State :=
  match l with
  | .mem pa _ _ => s.sigRecord pa g
  | .ch a => match s.gridOf? t with
    | none => s
    | some (i, gr) => s.setGrid i { gr with chipSig := gr.chipSig.record 64 s.clock (a / 32) g }
  | .remote _ _ _ => s
  | l =>
    match s.team? t, s.scrByte t l with
    | some tm, some b => s.setTeam t { tm with scrSig := tm.scrSig.record 64 s.clock (b / 32) g }
    | _, _ => s

/-- A valid copy in a core's L1 of a whole access to another package. -/
def l1Whole (s : State) (c line key off n : Nat) : Option (List Byte) :=
  match s.l1Find c line key with
  | none => none
  | some e =>
    let offs := (List.range n).map (off + ·)
    if offs.all fun o => wordValid e.bytes o then some (offs.map fun o => amGet 0 e.bytes o) else none

/-- Words that a plain load of another package brought, put where the copy has none (R182). -/
def l1Merge (s : State) (c line key : Nat) (patch : List (Nat × Byte)) : State :=
  let e := (s.l1Find c line key).getD { line := line, key := key, cls := 0, bytes := [], dirty := [], since := [] }
  let new := patch.filter fun b => !wordValid e.bytes b.1 &&
    ((List.range 4).all fun k => patch.any fun p => p.1 == b.1 / 4 * 4 + k)
  if new.isEmpty then s else s.l1Put c { e with bytes := putBytes e.bytes new }

/-- The data of one access of a load, once it may bind: none while it must wait. A local access reads now; one to
another package without a copy here sends its request, whose response binds it. -/
def accData (s : State) (w : WarpId) (x : Warp) (l : LoadOp) (a : Acc) : Option (List Byte × Sig) × State :=
  let t := w.team
  let c := x.core
  let acq := l.acq.isSome
  let older := x.loads.filter fun k => k.id < l.id && !loadBound k
  if older.any fun k => k.acq.isSome || k.accs.any fun b => !k.bound.getLsbD b.lane && s.overlap t a b then (none, s)
  else if s.sbHeld w l.id a || s.skWriting t x l.id a then (none, s)
  else
    match s.forward x t l.id a acq with
    | none => (none, s)
    | some fwd =>
      match a.loc with
      | .mem pa key cls =>
        if acq then
          if s.syncHeld c pa key then (none, s)
          else
            let (bs, s) := s.coreHomeRead c pa key cls a.len
            let (g, s) := s.acqSig t a.loc
            (some (bs, g), s)
        else if s.fillHeld c pa key a.len then (none, s)
        else
          let (bs, s) := s.l1Read c pa key cls a.len
          (some (overlay bs fwd, 0), s)
      | .remote fid ad key =>
        if fwd.all Option.isSome && !acq then (some (fwd.map fun b => b.getD 0, 0), s)
        else
          match (if acq then none else s.l1Whole c (lineName fid ad) key (ad % 128) a.len) with
          | some bs => (some (overlay bs fwd, 0), s)
          | none =>
            if s.asked w l.id a.lane then (none, s)
            else
              let busy := bit (s.fab.reqs.any fun r => r.core == c && r.pin == some (pinLine fid ad))
              let p := { s.packetTo .readReq fid with score := c, swarp := x.slot, addr := ad, key := key, len := a.len,
                                                      cas := acq }
              (none, (s.sendReq p { bareReq (.load w l.id) with core := c, slot := x.slot, va := a.ea,
                                                                lanes := [(a.lane, 0)], serial := busy, fwd := fwd } none).getD s)
      | .ch b => let (g, s) := if acq then s.acqSig t a.loc else (0, s); (some (overlay (s.chRead t b a.len) fwd, g), s)
      | .win _ _ _ => (none, s)
      | loc =>
        match s.pageAt t loc, s.scrByte t loc with
        | some p, some b =>
          if s.pageReady t p c then
            let (bs, s) := s.scrRead t b a.len
            let (g, s) := if acq then s.acqSig t loc else (0, s)
            (some (overlay bs fwd, g), s.touchPage t p)
          else (none, s.queueMiss t p c w.widx l.id)
        | _, _ => (none, s)

/-- The lanes of a mask bound for a load where they may (row LOAD_BIND). -/
def bindLoad (s : State) (w : WarpId) (id : Nat) (m : Mask) : State :=
  let step := fun (s : State) (i : Nat) =>
    match s.warp? w with
    | none => s
    | some x =>
      match x.loads.find? (fun l => l.id == id) with
      | none => s
      | some l =>
        let accs := l.accs.filter fun a => a.lane == i
        if l.bound.getLsbD i || !l.need.getLsbD i || accs.isEmpty || x.stores.any (fun o => o.id == id) then s
        else
          let (bs, s) := accs.foldl (fun (acc : Option (List Byte × Sig) × State) a =>
            match acc.1 with
            | none => acc
            | some (v, g) =>
              match acc.2.accData w x l a with
              | (some (v', g'), s) => (some (v ++ v', g ||| g'), s)
              | (none, s) => (none, s)) (some ([], 0), s)
          match bs with
          | some (v, g) => s.bindLane w id i v g
          | none => s
  ((laneList m).foldl step s).finishLoad w id

/-! ### Stores, `RED`s and atomics (R75, R162, R184, R298) -/

/-- Same-byte lanes of one instruction merged: a byte keeps the value of its highest lane (R294). -/
def mergeLanes (s : State) (t : Nat) (l : List StAcc) : List StAcc :=
  l.map fun q => { q with bytes := q.bytes.filter fun b =>
    !(l.any fun r => r.acc.lane > q.acc.lane &&
      r.bytes.any fun d => (s.accKeys t r.acc)[d.1]? == (s.accKeys t q.acc)[b.1]?) }

/-- A store's operation with more completed lanes. -/
def growStore (s : State) (w : WarpId) (o : StoreOp) : State :=
  (s.squash w o.id (o.accs.map StAcc.acc)).modWarp w fun x =>
    match x.stores.find? (fun k => k.id == o.id) with
    | some _ => { x with stores := x.stores.map fun (k : StoreOp) =>
        if k.id = o.id then { k with accs := s.mergeLanes w.team (k.accs ++ o.accs), todo := k.todo ||| o.todo } else k }
    | none => { x with stores := x.stores ++ [{ o with accs := s.mergeLanes w.team o.accs }] }

/-- A store acknowledged in full: no lane left to perform, nothing unacknowledged (R232). `st` falls. -/
def finishStore (s : State) (w : WarpId) (id : Nat) : State :=
  match s.warp? w with
  | none => s
  | some x =>
    match x.stores.find? (fun k => k.id == id) with
    | none => s
    | some o =>
      if o.todo != 0 || o.acks != 0 || (s.fab.reqs.any fun r => r.owner == .store w id) || x.skOps.any (fun k => k.id == id) ||
          x.window.any (fun e => e.seq == id) then s
      else s.setWarp w { x with stores := x.stores.filter fun (k : StoreOp) => k.id != id, ctr := x.ctr.add .st false }

/-- An atomic operation on old and operand values of w bits (R298). -/
def atomResult (op : AtomOp) (wide : Bool) (old b : Nat) : Nat :=
  let w := if wide then 64 else 32
  let f := if wide then fmtF64 else fmtF32
  match op with
  | .add => (old + b) % 2 ^ w
  | .inc => (old + 1) % 2 ^ w
  | .and => old &&& b
  | .or => old ||| b
  | .xor => old ^^^ b
  | .smin => if sextN old w ≤ sextN b w then old else b
  | .smax => if sextN old w ≥ sextN b w then old else b
  | .umin => min old b
  | .umax => max old b
  | .exch => b
  | .fadd => f.round .rn false ((f.value old).add false (f.value b))
  | .fmin => f.minEnc old b
  | .fmax => f.maxOf old b

/-- Whether the lanes of an operation on one remote address are combined into one packet (R184). -/
def combinable : StKind → Bool
  | .red op => op != .fadd && op != .fmin && op != .fmax && op != .exch
  | .atom op => op != .fadd && op != .fmin && op != .fmax && op != .exch
  | _ => false

/-- The operation of an atomic kind; `none` for a compare. -/
def kindOp : StKind → Option AtomOp
  | .red op => some op
  | .atom op => some op
  | _ => none

/-- Whether a kind reads and writes at the home. -/
def isAtomic : StKind → Bool
  | .red _ => true
  | .atom _ => true
  | .atomc => true
  | _ => false

/-- Whether a kind is a `RED`, which fetches nothing. -/
def isRed : StKind → Bool
  | .red _ => true
  | _ => false

/-- The new value that one lane of an atomic leaves (R298). -/
def atomNew (o : StoreOp) (q : StAcc) (old : Nat) : Nat :=
  match kindOp o.kind with
  | some op => atomResult op (q.acc.len == 8) old q.opnd
  | none => if old = q.cmp then q.opnd else old

/-- The lanes of an atomic on one place in ascending order: the final value and what each lane fetches. -/
def atomRun (o : StoreOp) (l : List StAcc) (old : Nat) : Nat × List (Nat × Nat) :=
  l.foldl (fun (a : Nat × List (Nat × Nat)) q => (atomNew o q a.1, a.2 ++ [(q.acc.lane, a.1)])) (old, [])

/-- Values fetched by lanes of an atomic bound in its load. -/
def bindFetched (s : State) (w : WarpId) (o : StoreOp) (n : Nat) (l : List (Nat × Nat)) (g : Sig) : State :=
  match o.kind with
  | .red _ => s
  | _ => l.foldl (fun s q => s.bindLane w o.id q.1 (leBytes n q.2) g) s

/-- Lanes of a store marked as performed here, their acknowledgement on its way. -/
def storeDone (s : State) (w : WarpId) (id : Nat) (m : Mask) (acks : Nat) : State :=
  s.modWarp w fun x => { x with stores := x.stores.map fun (k : StoreOp) =>
    if k.id = id then { k with todo := k.todo &&& ~~~m, acks := k.acks + acks } else k }

/-- The write packet of remote lanes in one line, sent on the path pinned for it and counted in the warp's ordered
stream (R179, R180, R182, R185); an atomic drops the core's copy of the line. `more` says that further lanes of an atomic
follow, which the home performs as one access with this one under the number `train` (R184). None while it must wait. -/
def sendWrite (s : State) (w : WarpId) (x : Warp) (o : StoreOp) (fid ad key ea : Nat) (data : List (Nat × Byte))
    (lanes : List (Nat × Nat)) (atom : Option AtomOp) (cas wide : Bool) (opnd opnd2 : Nat) (more : Bool := false)
    (train : Nat := 0) : Option State :=
  match s.takeStream w fid with
  | none => none
  | some ((serial, count), s) =>
    let kind := if isAtomic o.kind then PktKind.atomic else if o.kind = .ordered then .orderedFlag else .write
    let p := { s.packetTo kind fid with
      score := x.core, swarp := x.slot, serial := serial, ofcnt := if kind = .orderedFlag then count else 0
      tag := bit o.rel.isSome + 2 * bit o.acq.isSome + 4 * bit (isRed o.kind)
      addr := ad, key := key, len := if wide then 8 else 4, atom := atom, cas := cas, wide := wide, opnd := opnd, opnd2 := opnd2
      data := data, stream := true, more := more, train := train
      sig := if o.kind = .ordered then x.sigs.p else o.sig }
    let s := if isAtomic o.kind then s.l1Drop x.core (lineName fid ad) key else s
    (s.noFill x.core).sendReq p
      { bareReq (.store w o.id) with
        core := x.core, slot := x.slot, serial := serial, stream := true, va := ea, lanes := lanes }
      (some (pinLine fid ad))

/-- The packets of a remote atomic (R184): one that carries the operands of every lane combined, or one for each lane in
ascending order, sent together so that the home performs them with nothing between. None while they must wait. -/
def sendAtomic (s : State) (w : WarpId) (x : Warp) (o : StoreOp) (fid ad key : Nat) (group : List StAcc) : Option State :=
  match group with
  | [] => some s
  | f :: rest =>
    let wide := f.acc.len == 8
    if combinable o.kind then
      let opnd := match kindOp o.kind with
        | some .inc => group.length
        | some op => rest.foldl (fun a r => atomResult op wide a r.opnd) f.opnd
        | none => f.opnd
      let op := match kindOp o.kind with
        | some .inc => some AtomOp.add
        | op => op
      s.sendWrite w x o fid ad key f.acc.ea [] (group.map fun r => (r.acc.lane, r.opnd)) op false wide opnd 0
    else
      let train := s.fab.nextReq
      (group.mapIdx fun k r => (k + 1 == group.length, r)).foldl (fun (acc : Option State) r =>
        acc.bind fun s => s.sendWrite w x o fid ad key r.2.acc.ea [] [(r.2.acc.lane, r.2.opnd)] (kindOp o.kind)
          (kindOp o.kind).isNone wide r.2.opnd r.2.cmp (!r.1) train) (some s)

/-- Whether a store is an ordered flag that must wait to leave: some older store of the warp to its package has a lane still to
send, which the flag must not overtake (R176). -/
def flagWaits (x : Warp) (o : StoreOp) (fid : Nat) : Bool :=
  o.kind == .ordered && x.stores.any fun k => k.id < o.id && k.accs.any fun q => k.todo.getLsbD q.acc.lane &&
    match q.acc.loc with
    | .remote f _ _ => f == fid
    | _ => false

/-- A valid L1 copy of a remote line follows the warp's own store (R182). -/
def remoteCopy (s : State) (c fid ad key : Nat) (patch : List (Nat × Byte)) : State :=
  s.l1Update c (lineName fid ad) key (patch.map fun b => (ad % 128 + b.1, b.2))

/-- One lane of a store performed, with every lane it performs together with: the lanes of an atomic on its address,
or the lanes of a remote store in its line. -/
def performLane (s : State) (w : WarpId) (id i : Nat) : State :=
  match s.warp? w with
  | none => s
  | some x =>
    match x.stores.find? (fun k => k.id == id) with
    | none => s
    | some o =>
      if !o.todo.getLsbD i then s
      else
        let t := w.team
        let c := x.core
        let mine := o.accs.filter fun q => q.acc.lane == i
        let left := o.accs.filter fun q => o.todo.getLsbD q.acc.lane
        let older := x.stores.filter fun k => k.id < id && k.todo != 0
        let held := fun (q : StAcc) => s.sbHeld w id q.acc || s.skWriting t x id q.acc ||
          older.any fun k => k.accs.any fun r => k.todo.getLsbD r.acc.lane && s.overlap t q.acc r.acc
        if mine.any held then s
        else
          match mine with
          | [] => s.storeDone w id (laneBit i) 0
          | q :: _ =>
            match q.acc.loc with
            | .mem pa key cls =>
              if isAtomic o.kind then
                if s.homeHeld pa key then s
                else
                  let group := left.filter fun r => r.acc.loc == q.acc.loc
                  let (bs, s) := s.coreHomeRead c pa key cls q.acc.len
                  let (g, s) := if o.acq.isSome then s.acqSig t q.acc.loc else (0, s)
                  let r := atomRun o group (leNat bs)
                  let s := s.coreHomeWrite c pa key cls ((leBytes q.acc.len r.1).mapIdx fun k b => (k, b))
                  let s := if o.rel.isSome then s.relSig t q.acc.loc o.sig else s
                  (s.bindFetched w o q.acc.len r.2 g).storeDone w id (maskOf fun k => group.any fun r => r.acc.lane == k) 1
              else if o.kind = .release then
                if s.homeHeld pa key then s
                else ((s.coreHomeWrite c pa key cls q.bytes).relSig t q.acc.loc o.sig).storeDone w id (laneBit i) 1
              else if s.fillHeld c pa key q.acc.len then s
              else
                match s.l1Room c (lineName s.fab.fid pa) key with
                | none => s
                | some s => (s.l1Store c pa key cls q.bytes).storeDone w id (laneBit i) 1
            | .remote fid ad key =>
              if isAtomic o.kind then
                let group := left.filter fun r => r.acc.loc == q.acc.loc
                match s.sendAtomic w x o fid ad key group with
                | none => s
                | some s => s.storeDone w id (maskOf fun k => group.any fun r => r.acc.lane == k) 0
              else if flagWaits x o fid then s
              else
                let same := left.filter fun r => match r.acc.loc with
                  | .remote f a k => f == fid && a / 128 == ad / 128 && k == key && !held r
                  | _ => false
                let base := ad / 128 * 128
                let data := same.flatMap fun r => match r.acc.loc with
                  | .remote _ a _ => r.bytes.map fun b => (a % 128 + b.1, b.2)
                  | _ => []
                match s.sendWrite w x o fid base key q.acc.ea data [] none false false 0 0 with
                | none => s
                | some s => (s.remoteCopy c fid base key data).storeDone w id (maskOf fun k => same.any fun r => r.acc.lane == k) 0
            | .ch b =>
              let group := if isAtomic o.kind then left.filter fun r => r.acc.loc == q.acc.loc else [q]
              if isAtomic o.kind then
                let (g, s) := if o.acq.isSome then s.acqSig t q.acc.loc else (0, s)
                let r := atomRun o group (leNat (s.chRead t b q.acc.len))
                let s := s.chPatch t b ((leBytes q.acc.len r.1).mapIdx fun k b => (k, b))
                let s := if o.rel.isSome then s.relSig t q.acc.loc o.sig else s
                (s.bindFetched w o q.acc.len r.2 g).storeDone w id (maskOf fun k => group.any fun r => r.acc.lane == k) 1
              else
                let s := s.chPatch t b q.bytes
                let s := if o.rel.isSome then s.relSig t q.acc.loc o.sig else s
                s.storeDone w id (laneBit i) 1
            | .win _ _ _ => s
            | _ =>
              match (mine.filterMap fun q => s.pageAt t q.acc.loc).find? fun p => !s.pageReady t p c with
              | some p => s.queueMiss t p c w.widx id
              | none =>
                if isAtomic o.kind then
                  match s.scrByte t q.acc.loc with
                  | none => s
                  | some b =>
                    let group := left.filter fun r => r.acc.loc == q.acc.loc
                    let (bs, s) := s.scrRead t b q.acc.len
                    let (g, s) := if o.acq.isSome then s.acqSig t q.acc.loc else (0, s)
                    let r := atomRun o group (leNat bs)
                    let s := s.scrPatch t ((leBytes q.acc.len r.1).mapIdx fun k v => (b + k, v))
                    let s := if o.rel.isSome then s.relSig t q.acc.loc o.sig else s
                    (s.bindFetched w o q.acc.len r.2 g).storeDone w id (maskOf fun k => group.any fun r => r.acc.lane == k) 1
                else
                  let s := mine.foldl (fun s q =>
                    match s.scrByte t q.acc.loc with
                    | none => s
                    | some b =>
                      let s := s.scrPatch t (q.bytes.map fun d => (b + d.1, d.2))
                      if o.rel.isSome then s.relSig t q.acc.loc o.sig else s) s
                  s.storeDone w id (laneBit i) 1

/-- The lanes of a mask performed for a store that has retired, where they may (row STORE_PERFORM): every older load and
atomic of the warp has bound (R75), and a release has met R162 and is made once for the instruction. -/
def performStore (s : State) (w : WarpId) (id : Nat) (m : Mask) : State :=
  match s.warp? w with
  | none => s
  | some x =>
    match x.stores.find? (fun k => k.id == id) with
    | none => s
    | some o =>
      if x.window.any (fun e => e.seq == id) || (x.loads.any fun l => l.id < id && !loadBound l) || queryOpen x id ||
          tileReads x id then s
      else
        let ready : Option State :=
          match o.rel with
          | none => some s
          | some sc =>
            if o.released then some s
            else if !s.olderDone w x id sc then none
            else
              let (g, s) := s.release w sc
              some (s.modWarp w fun x => { x with stores := x.stores.map fun (k : StoreOp) =>
                if k.id = id then { k with sig := g, released := true } else k })
        match ready with
        | none => s
        | some s => ((((laneList m).foldl (fun s i => s.performLane w id i) s).finishLoad w id).finishStore w id).closeExited w

end State

end Sys2Proof.Machine
end

