-- ==== Sys2Proof/Machine/Shadow.lean ====
section
/-! DEFINITION. Shadows and twin frames: the twin pool of a partition, the opening, publication and dropping of
shadowed leaves (R171 to R175, R306, R398), and the copy of a page into a twin (R364). -/

namespace Sys2Proof.Machine

namespace State

/-! ### Frames of 512 KiB -/

/-- Whether a place lies in a frame. -/
def inFrame (f : Nat) : Loc → Bool
  | .mem pa _ _ => pa / 2 ^ 19 == f
  | _ => false

/-- Whether a store of some warp, translated to a frame, has yet to perform there. -/
def storesTo (s : State) (f : Nat) : Bool :=
  s.warps.any fun x => x.2.stores.any fun o => o.accs.any fun q => o.todo.getLsbD q.acc.lane && inFrame f q.acc.loc

/-- Whether an access translated to a frame has yet to complete (R119, R173). -/
def frameBusy (s : State) (f : Nat) : Bool :=
  s.storesTo f || s.warps.any fun x =>
    (x.2.loads.any fun l => l.accs.any fun a => !l.bound.getLsbD a.lane && inFrame f a.loc) ||
    (x.2.tileOps.any fun o => o.places.any fun q => inFrame f q.1) ||
    x.2.skOps.any fun o => o.lanes.any fun l => l.done < l.steps && l.cols.any (inFrame f)

/-- A frame taken from a partition's twin pool; none while it has none to give. -/
def takeTwin (s : State) (p : Nat) : Option (Nat × State) :=
  match (s.part p).twins.find? fun f => !s.frameBusy f with
  | none => none
  | some f => some (f, s.modPart p fun x => { x with twins := x.twins.filter fun g => g != f })

/-- A frame given back to the pool. -/
def giveTwin (s : State) (p f : Nat) : State := s.modPart p fun x => { x with twins := x.twins ++ [f] }

/-- The lines of a frame out of their home slices, their dirty bytes in memory; a stranded line stays where it is (R125). -/
def flushFrame (s : State) (f : Nat) : State :=
  let mine := s.mem.l2.filter fun e => e.line / 4096 == f && e.slice == s.mem.l2Home (e.line * 128)
  s.setMem (mine.foldl (fun m e => (m.l2Write e).l2Drop e.slice e.line e.key) s.mem)

/-- The lines of a frame out of every L1, their dirty bytes at the home. -/
def flushFrameL1 (s : State) (f : Nat) : State :=
  s.mem.cores.foldl (fun s c =>
    (c.2.l1.filter fun e => e.line / 2 ^ 33 == s.fab.fid && e.line % 2 ^ 33 / 4096 == f).foldl (fun s e =>
      let s := if e.dirty.isEmpty then s else s.lineWrite (e.line % 2 ^ 33) e.key e.cls (e.dirtyIn fun _ => true)
      s.l1Drop c.1 e.line e.key) s) s

/-- The sectors of a frame, but for those listed, copied onto another frame under a key. -/
def copyFrame (s : State) (src dst key : Nat) (but : List Nat) : State :=
  ((List.range 16384).filter fun k => !but.contains k).foldl (fun (s : State) k =>
    let patch := (List.range 32).map fun o => (k % 4 * 32 + o, s.mem.hbmGet (src * 4096 + k / 4) key (k % 4 * 32 + o))
    let s := s.strandNote (dst * 4096 + k / 4) key patch
    s.setMem (s.mem.hbmPatch (dst * 4096 + k / 4) key patch)) ((s.flushFrame src).flushFrame dst)

/-! ### Leaves of a range -/

/-- The leaves of a range in ascending order, each with the address it was found at; none where no valid leaf maps
it. `tr` translates an address. -/
def rangeLeaves (s : State) (part : Nat) (tr : State → Nat → Walk × State) (a n : Nat) : List (Nat × Option Tlb) × State :=
  if n = 0 then ([], s)
  else
    (List.range ((a + n - 1) / 2 ^ 19 - a / 2 ^ 19 + 1)).foldl (fun (acc : List (Nat × Option Tlb) × State) k =>
      let va := max a ((a / 2 ^ 19 + k) * 2 ^ 19)
      if va ≥ 2 ^ 57 then (acc.1 ++ [(va, none)], acc.2)
      else
        match tr acc.2 va with
        | (.leaf e, s) =>
          if bigMalformed e || s.foreignStack part e then (acc.1 ++ [(va, none)], s) else (acc.1 ++ [(va, some e)], s)
        | (_, s) => (acc.1 ++ [(va, none)], s)) ([], s)

/-- The leaves of a range as a warp translates it. -/
def warpLeaves (s : State) (w : WarpId) (a n : Nat) : List (Nat × Option Tlb) × State :=
  s.rangeLeaves (s.partOf w.team) (fun s va => s.translate (s.coreOf w) (s.ctxOf w.team) va) a n

/-- The checks of R398 over every leaf of a range: a page without a valid leaf, then permission, then type and
size. -/
def leavesBad (l : List (Nat × Option Tlb)) (sys : Bool) : Option (Nat × Nat) :=
  match l.find? fun q => q.2.isNone with
  | some q => some (0x10, q.1)
  | none =>
    match l.find? fun q => q.2.any fun e => !pteW e.leaf || (pteSys e.leaf && !sys) with
    | some q => some (0x12, q.1)
    | none => (l.find? fun q => q.2.any fun e => e.big || pteType e.leaf != 0).map fun q => (0x03, q.1)

/-- The leaves themselves. -/
def leavesOf (l : List (Nat × Option Tlb)) : List Tlb := l.filterMap (·.2)

/-- The snapshot page of a leaf, not yet drained. -/
def snapOf (s : State) (p eaddr : Nat) : Option SnPage :=
  (s.part p).snap.pages.find? fun g => g.eaddr == eaddr && !g.drained

/-- A page of the snapshot that a change waits for, drained ahead of the others (R171, R365). -/
def drainAhead (s : State) (p eaddr : Nat) : State :=
  s.modPart p fun x => { x with snap := { x.snap with pages := x.snap.pages.map fun (g : SnPage) =>
    if g.eaddr = eaddr then { g with ahead := true } else g } }

/-! ### Opening (R171) -/

/-- One leaf taken to TWIN 01; none while it waits for the snapshot engine or for a twin. -/
def openLeaf (s : State) (t : Nat) (e : Tlb) : Option State × State :=
  let p := s.partOf t
  match pteTwin e.leaf with
  | 1 => (some s, s)
  | 0 =>
    match s.takeTwin p with
    | none => (none, s)
    | some (f, s') =>
      let sh : Shadow := { eaddr := e.eaddr, orig := pteAddr e.leaf, twin := f, key := pteKey e.leaf, part := p, team := t,
                           written := [] }
      let s' := s'.setMem { s'.mem with shadows := s'.mem.shadows ++ [sh] }
      (some (s'.rewriteLeaf e.eaddr (pteSetTwin e.leaf 1)), s)
  | _ => (none, s.drainAhead p e.eaddr)

/-- The leaves of a list opened in ascending order; the flag says whether all of them are at TWIN 01. -/
def openLeaves (s : State) (t : Nat) : List Tlb → Bool × State
  | [] => (true, s)
  | e :: l =>
    match s.openLeaf t e with
    | (some s, _) => openLeaves s t l
    | (none, s) => (false, s)

/-! ### Publication (R173, R174) -/

/-- The shadow of a leaf. -/
def shadowOf (s : State) (eaddr : Nat) : Option Shadow := s.mem.shadows.find? fun h => h.eaddr == eaddr

/-- Whether the publication of a leaf must wait: for the Carter, which drains a leaf marked at the cut first (R362), for a
store to the original that has yet to perform (R409), or for a load of its key (R359). -/
def publishHeld (s : State) (p : Nat) (e : Tlb) : Bool :=
  pteTwin e.leaf == 1 && ((s.snapOf p e.eaddr).isSome || s.storesTo (pteAddr e.leaf) || s.keyWaits (pteKey e.leaf))

/-- Accesses of other packages to a superseded frame go to the frame that replaced it, until system software ends the
redirection (R174). -/
def addRedir (s : State) (p old new : Nat) : State :=
  let l := (s.mem.redirs.filter fun r => r.1 != old).map fun r =>
    if r.2.1 = old then (r.1, new, r.2.2) else r
  s.setMem { s.mem with redirs := l ++ [(old, new, p)] }

/-- One leaf published: the sectors no engine write reached are filled from the original, the leaf takes the twin
frame, and the old frame returns to the pool. -/
def publishLeaf (s : State) (e : Tlb) : State :=
  match pteTwin e.leaf == 1, s.shadowOf e.eaddr with
  | true, some h =>
    let s := (s.flushFrameL1 h.orig).flushFrameL1 h.twin
    let s := s.copyFrame h.orig h.twin h.key h.written
    let s := s.setMem { s.mem with shadows := s.mem.shadows.filter fun g => g.eaddr != e.eaddr }
    let s := s.rewriteLeaf e.eaddr (pteSetFrame (pteSetTwin e.leaf 0) h.twin)
    (s.addRedir h.part h.orig h.twin).giveTwin h.part h.orig
  | _, _ => s

/-- One leaf back to TWIN 00 without publication (R175). -/
def dropLeaf (s : State) (e : Tlb) : State :=
  match pteTwin e.leaf == 1, s.shadowOf e.eaddr with
  | true, some h =>
    let s := s.setMem { s.mem with shadows := s.mem.shadows.filter fun g => g.eaddr != e.eaddr }
    (s.rewriteLeaf e.eaddr (pteSetTwin e.leaf 0)).giveTwin h.part h.twin
  | _, _ => s

/-- Whether an engine write of a team to a virtual range has yet to land (step 1 of R173). -/
def engWrites (s : State) (t a n : Nat) : Bool :=
  (s.warpsOf t).any fun x =>
    (x.2.copies.any fun c => c.stage != .landed && c.ds == .gl && c.kind != .put &&
      match c.kind with
      | .copy | .get => c.rows.any fun r => r.dst < a + n && a < r.dst + r.len
      | _ => false) ||
    x.2.tileOps.any fun o => !o.places.isEmpty && o.addr < a + n && a < o.addr + o.len

end State

end Sys2Proof.Machine
end

