-- ==== Sys2Proof/Machine/Trigger.lean ====
section
/-! DEFINITION. What the device does for itself on behalf of a context: reads through its translation, trigger counters
(R196), and armed operations as they fire (R197, R198). -/

namespace Sys2Proof.Machine

/-- The name under which the device's own reads of other packages are answered: no warp has it. -/
def devWarp : WarpId := ⟨2 ^ 32, 0⟩

namespace State

/-! ### Reads of the device -/

/-- Translation and permission without a core's buffers. -/
def devXlate (s : State) (ctx va : Nat) (u : Use) : Xl × State :=
  if va ≥ 2 ^ 57 then (.fail 0x10, s)
  else
    match s.walk ctx va with
    | (.hard, s) => (.fail 0x10, s)
    | (.absent, s) => (.absent, s)
    | (.leaf e, s) =>
      let x := s.ctx ctx
      if bigMalformed e || s.foreignStack x.part e then (.fail 0x10, s)
      else if !permits e.leaf x.sysc u then (.fail 0x12, s)
      else (.ok e, s)

/-- Remote bytes asked for by the device under a number, sent unless they are on their way. -/
def devAsk (s : State) (id fid addr key n : Nat) : State :=
  if s.fab.reqs.any fun r => r.owner == .fetch devWarp id && r.fid == fid && r.va == addr then s
  else
    let p := { s.packetTo .readReq fid with addr := addr, key := key, len := n }
    (s.sendReq p { bareReq (.fetch devWarp id) with va := addr } none).getD s

/-- `n` bytes of a context's memory, read by the device under a number. -/
def readCtx (s : State) (id ctx va n : Nat) : Got × State :=
  (lineCuts (n / 128 + 2) va n).foldl (fun (acc : Got × State) (k : Nat × Nat × Nat) =>
    match acc.1 with
    | .bytes l =>
      let a := k.1 * 128 + k.2.1
      match acc.2.devXlate ctx a .load with
      | (.fail code, s) => (.fail code a, s)
      | (.absent, s) => (.absent a, s)
      | (.ok e, s) =>
        match locOf e a with
        | .mem pa key cls =>
          if s.keyWaits key then (.wait, s) else let (bs, s) := s.homeRead pa key cls k.2.2; (.bytes (l ++ bs), s)
        | .remote fid addr key =>
          match s.arrived? devWarp id fid addr with
          | some bs => (.bytes (l ++ bs), s)
          | none => (.wait, s.devAsk id fid addr key k.2.2)
        | _ => (.fail 0x16 a, s)
    | o => (o, acc.2)) (.bytes [], s)

/-! ### Trigger counters (R196) -/

/-- Whether a counter belongs to a partition, which owns none while it is disabled (R358). -/
def trigIn (s : State) (p c : Nat) : Bool :=
  (s.part p).en && (s.part p).trigFirst ≤ c && c < (s.part p).trigFirst + (s.part p).trigCnt

/-- The value of a trigger counter. -/
def trigGet (s : State) (c : Nat) : Int := amGet 0 s.fab.triggers c

/-- A counter set. -/
def trigSet (s : State) (c : Nat) (v : Int) : State := s.modFab fun f => { f with triggers := amPut 0 f.triggers c v }

/-- A signed value clamped to 64 bits. -/
def clamp64 (v : Int) : Int := max (-(2 ^ 63)) (min (2 ^ 63 - 1) v)

/-! ### Armed operations (Table 9-5) -/

def opKind (a : Armed) : Nat := bytesNat a.opRec 0 1
/-- The scope of a publish (Table 9-5). -/
def opScope (a : Armed) : Scope :=
  match bytesNat a.opRec 1 1 with
  | 2 => .p
  | 3 => .s
  | _ => .c
def opQueue (a : Armed) : Nat := bytesNat a.opRec 2 1
def opAddr (a : Armed) : Nat := bytesNat a.opRec 8 8
def opLen (a : Armed) : Nat := bytesNat a.opRec 16 8
def opDest (a : Armed) : Nat := bytesNat a.opRec 24 4
def opTag (a : Armed) : Nat := bytesNat a.opRec 28 4

/-- A fired launch (R197): a grid of the arming context at depth 0 in the device ring of its queue. A record that
cannot be read counts as zeros, which the dispatcher rejects (R382). -/
def fireLaunch (s : State) (a : Armed) : Option State × State :=
  match s.readCtx a.handle a.ctx (opAddr a) 512 with
  | (.wait, s) => (none, s)
  | (g, s) =>
    let l := match g with
      | .bytes l => l
      | _ => List.replicate 512 0
    let r : DevRec :=
      { record := l, arrival := 0, recAddr := opAddr a, ctx := a.ctx, depth := 0, parent := none, handle := 0, launcher := s.fab.fid,
        launchKey := 2 ^ 80 + s.nextHandle, isHost := false, prio7 := false, step := 0 }
    match s.enqueueDev (opQueue a) r with
    | none => (none, s)
    | some s' => (some { s' with nextHandle := s'.nextHandle + 1 }, s)

/-- A fired send (R198): the device sends it; SERIAL 1 marks a message that no warp's order holds. One whose bytes
cannot be read is not sent. -/
def fireSend (s : State) (a : Armed) : Option State × State :=
  match s.readCtx a.handle a.ctx (opAddr a) (opLen a) with
  | (.wait, s) => (none, s)
  | (.bytes l, s) =>
    let p := { s.packetTo .message (field (opDest a) 16 13) with
      serial := 1, tag := opTag a, ctx := field (opDest a) 0 12, len := opLen a, data := l.mapIdx fun k b => (k, b) }
    (s.sendReq p { bareReq .nobody with va := opAddr a } none, s)
  | (_, s) => (some s, s)

/-- Whether the release of a fired publish may be made at its scope (step 2 of R173): the accesses older than the instruction
that fired it have performed (R162, R197, log 93). -/
def causeDone (s : State) (a : Armed) : Bool :=
  match a.cause with
  | none => true
  | some (w, id) =>
    match s.warp? w with
    | none => true
    | some x => s.olderDone w x id (opScope a)

/-- The release itself: the dirty sectors of the core whose instruction fired it reach their homes. -/
def causeFlush (s : State) (a : Armed) : State :=
  match a.cause.bind fun c => s.warp? c.1 with
  | none => s
  | some x => s.l1Flush x.core

/-- A fired publish (R198): it waits for the arming team's engine writes to its range, and is a release at its scope (R173). A
range that breaks R398 is not published. -/
def firePublish (s : State) (a : Armed) : Option State × State :=
  if s.engWrites a.team (opAddr a) (opLen a) || !s.causeDone a then (none, s)
  else
    let p := (s.ctx a.ctx).part
    let (l, s) := s.rangeLeaves p (fun s va => s.walk a.ctx va) (opAddr a) (opLen a)
    if (leavesBad l (s.ctx a.ctx).sysc).isSome then (some s, s)
    else if (leavesOf l).any fun e => s.publishHeld p e then (none, s)
    else (some ((leavesOf l).foldl (fun s e => s.publishLeaf e) (s.causeFlush a)), s)

/-- One fired operation carried out and removed; none while it waits. -/
def fireOne (s : State) (a : Armed) : Option State × State :=
  let r := match opKind a with
    | 1 => s.fireLaunch a
    | 2 => s.fireSend a
    | _ => s.firePublish a
  match r with
  | (none, s) => (none, s)
  | (some s, s') =>
    (some ((s.inboxDrop devWarp a.handle).modFab fun f => { f with armed := f.armed.filter fun b => b.handle != a.handle }), s')

/-- The fired operations of a counter that have yet to act, carried out in their order until one waits. -/
def fireCtr (s : State) (c : Nat) : State :=
  ((s.fab.armed.filter fun a => a.ctr == c && a.due).foldl (fun (acc : Bool × State) a =>
    if !acc.1 then acc
    else
      match acc.2.fireOne a with
      | (some s, _) => (true, s)
      | (none, s) => (false, s)) (true, s)).2

/-- Every fired operation that waits tried again. -/
def fireWaiting (s : State) : State :=
  (((s.fab.armed.filter fun a => a.due).map fun a => a.ctr).dedup).foldl (fun s c => s.fireCtr c) s

/-- An armed operation put in firing order: by threshold, then by arming order. -/
def byThr (a : Armed) : List Armed → List Armed
  | [] => [a]
  | b :: l => if a.thr < b.thr || (a.thr = b.thr && a.order < b.order) then a :: b :: l else b :: byThr a l

/-- The armed operations of a counter that its value has reached fire, lowest threshold first (R197), for the warp whose
instruction carried it there, if one did. -/
def fireReached (s : State) (c : Nat) (cause : Option (WarpId × Nat)) : State :=
  let v := s.trigGet c
  let hit := fun (a : Armed) => a.ctr == c && !a.due && a.thr ≤ v
  let now := (s.fab.armed.filter hit).foldl (fun l a => byThr a l) []
  if now.isEmpty then s
  else
    (s.modFab fun f =>
      { f with armed := (f.armed.filter fun a => !hit a) ++ now.map fun a => { a with due := true, cause := cause } }).fireCtr c

/-- A value added to a counter, saturating (R196): a rise fires what it reaches, a fall fires nothing. -/
def trigAdd (s : State) (c : Nat) (v : Int) (cause : Option (WarpId × Nat)) : State :=
  let s := s.trigSet c (clamp64 (s.trigGet c + v))
  if v > 0 then s.fireReached c cause else s

end State

end Sys2Proof.Machine
end

