-- ==== Sys2Proof/Machine/Engine.lean ====
section
/-! DEFINITION. The copy streamer: places of an engine access (R169, R172, R303), pages it meets after issue (R406), the
transfer and landing of copies, multicasts, chunks and messages (R188, R194, R199, R303 to R305), and batches. -/

namespace Sys2Proof.Machine

/-- What finding the places of an engine access comes to: pieces within a line or a page, a failure, a serviceable
absence, or a wait. -/
inductive Eng where
  | ok (l : List (Loc × Nat))
  | fail (code va : Nat)
  | absent (va : Nat)
  | hold
  deriving DecidableEq, Repr

namespace State

/-! ### Places -/

/-- The place of an engine access under a leaf: a write to a leaf at TWIN 01 lands in the twin (R172). -/
def engLoc (s : State) (e : Tlb) (va : Nat) (write : Bool) : Loc :=
  match write && pteType e.leaf == 0 && pteTwin e.leaf == 1, s.shadowOf e.eaddr with
  | true, some h => .mem (h.twin * 2 ^ 19 + va % 2 ^ 19) (pteKey e.leaf) (pteCls e.leaf)
  | _, _ => locOf e va

/-- One byte's place checked against what the operation expects there: a local page, or a page of one package
(R395, R406). -/
def engKind (l : Loc) (want : Option Nat) (va : Nat) : Option (Nat × Nat) :=
  match l, want with
  | .mem _ _ _, none => none
  | .remote f _ _, some g => if f = g then none else some (0x03, va)
  | .win _ _ _, _ => some (0x16, va)
  | _, _ => some (0x03, va)

/-- The pieces of a `.gl` range of an engine access; `now` says that it performs now, and so waits where R364 says. -/
def engGl (s : State) (w : WarpId) (a n : Nat) (write : Bool) (want : Option Nat) (now : Bool) : Eng × State :=
  (lineCuts (n / 128 + 2) a n).foldl (fun (acc : Eng × State) (k : Nat × Nat × Nat) =>
    match acc.1 with
    | .ok l =>
      let va := (k.1 * 128 + k.2.1) % 2 ^ 64
      match acc.2.xlate (acc.2.coreOf w) (acc.2.ctxOf w.team) va (if write then .engWrite else .engRead) with
      | (.fail code, s) => (.fail code va, s)
      | (.absent, s) => (.absent va, s)
      | (.ok e, s) =>
        let p := s.engLoc e va write
        match engKind p want va with
        | some f => (.fail f.1 f.2, s)
        | none =>
          match p with
          | .mem pa key _ =>
            if now && (if write then s.homeHeld pa key else s.syncHeld (s.coreOf w) pa key) then (.hold, s)
            else (.ok (l ++ [(p, k.2.2)]), s)
          | _ => (.ok (l ++ [(p, k.2.2)]), s)
    | o => (o, acc.2)) (.ok [], s)

/-- The pieces of a range of a scratch space: each page must be served to the copy warp's core (R110, R303), and a
read waits behind another copy that fills the range (R170). -/
def engScr (s : State) (w : WarpId) (id : Nat) (sp : Space) (a n : Nat) (write : Bool) : Eng × State :=
  match sp with
  | .ch => (.ok [(.ch a, n)], s)
  | _ =>
    let cl := sp == .cl
    let b := s.scrIndex w.team cl a
    match (pagesOf b n).filter fun p => !s.pageReady w.team p (s.coreOf w) with
    | [] =>
      if !write && s.sbCovers w id b n then (.hold, s)
      else (.ok [(if cl then .cl a else .sc a, n)], s)
    | l => (.hold, l.foldl (fun s p => s.queueMiss w.team p (s.coreOf w) w.widx id) s)

/-- The pieces of a range of any space. -/
def engRange (s : State) (w : WarpId) (id : Nat) (sp : Space) (a n : Nat) (write : Bool) (want : Option Nat) : Eng × State :=
  if n = 0 then (.ok [], s)
  else if sp = .gl then s.engGl w a n write want true
  else s.engScr w id sp a n write

/-! ### Bytes -/

/-- Engine bytes read at a local place (R169): the warp's own dirty sectors there reach the home first (step 3 of
R303); a read of scratch counts as an access of its pages (R111). -/
def engGet (s : State) (w : WarpId) (l : Loc) (n : Nat) : List Byte × State :=
  match l with
  | .mem pa key cls => (s.l1Sync (s.coreOf w) pa key n).homeRead pa key cls n
  | .ch a => (s.chRead w.team a n, s)
  | .remote _ _ _ => (List.replicate n 0, s)
  | .win _ _ _ => (List.replicate n 0, s)
  | l => match s.scrByte w.team l with
    | none => ([], s)
    | some b =>
      let (bs, s) := s.scrRead w.team b n
      (bs, (pagesOf b n).foldl (fun s p => s.touchPage w.team p) s)

/-- The line that an engine write reached leaves the issuing core's L1: the words written are dropped, its other dirty
bytes reach the home first (step 5 of R303). -/
def engDrop (s : State) (c pa key n : Nat) : State :=
  match s.l1Find c (lineName s.fab.fid pa) key with
  | none => s
  | some e =>
    let rest := e.dirty.filter fun o => o / 4 < pa % 128 / 4 || (pa % 128 + n - 1) / 4 < o / 4
    (s.lineWrite (pa / 128) key e.cls (e.bytes.filter fun b => rest.contains b.1)).l1Drop c e.line e.key

/-- The sectors of a twin that an engine write reached (R172, R173). -/
def markTwin (s : State) (pa n : Nat) : State :=
  let first := pa % 2 ^ 19 / 32
  let secs := (List.range ((pa % 2 ^ 19 + n - 1) / 32 - first + 1)).map (first + ·)
  if s.mem.shadows.any fun h => h.twin == pa / 2 ^ 19 then
    s.setMem { s.mem with shadows := s.mem.shadows.map fun h =>
      if h.twin = pa / 2 ^ 19 then { h with written := addOffs h.written secs } else h }
  else s

/-- Engine bytes written at a local place, which enter the signatures of the warp that issued them (R166, R169). -/
def engPut (s : State) (w : WarpId) (l : Loc) (bs : List Byte) : State :=
  if bs.isEmpty then s
  else
    match l with
    | .mem pa key cls =>
      (((s.noteWrite w l bs.length).homeWrite pa key cls bs).markTwin pa bs.length).engDrop (s.coreOf w) pa key bs.length
    | .ch a => s.chPatch w.team a (bs.mapIdx fun k b => (k, b))
    | .remote _ _ _ => s
    | .win _ _ _ => s
    | l => match s.scrByte w.team l with
      | none => s
      | some b => s.scrPatch w.team (bs.mapIdx fun k v => (b + k, v))

/-- The bytes of a list of pieces. -/
def engGets (s : State) (w : WarpId) (l : List (Loc × Nat)) : List Byte × State :=
  l.foldl (fun (acc : List Byte × State) p =>
    let (bs, s) := acc.2.engGet w p.1 p.2
    (acc.1 ++ bs, s)) ([], s)

/-- Bytes put over a list of pieces. -/
def engPuts (s : State) (w : WarpId) (l : List (Loc × Nat)) (bs : List Byte) : State :=
  (l.foldl (fun (acc : List Byte × State) p => (acc.1.drop p.2, acc.2.engPut w p.1 (acc.1.take p.2))) (bs, s)).2

/-! ### Operations of a warp -/

/-- An operation changed. -/
def modCopy (s : State) (w : WarpId) (id : Nat) (f : CopyOp → CopyOp) : State :=
  s.modWarp w fun x => { x with copies := x.copies.map fun (c : CopyOp) => if c.id = id then f c else c }

/-- The scoreboard entry of an operation freed (R170). -/
def dropSbd (s : State) (w : WarpId) (id : Nat) : State :=
  s.modCore (s.coreOf w) fun x =>
    { x with scoreboard := x.scoreboard.filter fun e => !(e.team == w.team && e.warp == w.widx && e.id == id) }

/-- A bit of a team's `sr_fstat` set (R248). -/
def setFstat (s : State) (t b : Nat) : State := s.modTeam t fun x => { x with fstat := x.fstat ||| 2 ^ b }

/-- A request for a page that an engine operation waits for (R406). -/
def engRequest (s : State) (w : WarpId) (pc : Nat) (word : DWord) (mask : Mask) (va : Nat) (write : Bool) : State :=
  let c := s.ctxOf w.team
  if (s.ctx c).requests.contains (pageOf va) then s
  else
    (s.modCtx c fun z => { z with requests := z.requests ++ [pageOf va] }).postEvent c
      { TrapRec.zero with
        code := 0x10, sub := if write then 0x21 else 0x20, addrv := true, addr := va, pc := pc, insn := word, mask := mask,
        widx := w.widx, pcore := s.coreOf w }

/-- An engine operation that failed halts its team (R406): the warp's record carries the cause and the address, and names
the point where the warp stops (R376). -/
def engHalt (s : State) (w : WarpId) (code va : Nat) : State :=
  s.haltTeam w { TrapRec.zero with
    code := code, sub := 0x03, addrv := true, addr := va, widx := w.widx, pcore := s.coreOf w } true

/-- What an operation does when its places are not to be had: it halts the team and counts as landed, pauses, or
waits. -/
def copyStop (s : State) (w : WarpId) (o : CopyOp) (write : Bool) : Eng → State
  | .ok _ => s
  | .hold => s
  | .fail code va =>
    ((s.modCopy w o.id fun c => { c with stage := .landed, rows := [] }).dropSbd w o.id).engHalt w code va
  | .absent va =>
    (s.modCopy w o.id fun c =>
      { c with paused := addOffs c.paused [pageOf va], pausedAt := amSet c.pausedAt (pageOf va) va }).engRequest w o.pc o.word
        o.mask va write

/-- Whether an older write of the warp to a byte of a place has yet to perform at its home (step 3 of R303). -/
def olderWrite (s : State) (x : Warp) (w : WarpId) (id : Nat) (p : Loc × Nat) : Bool :=
  let a : Acc := { lane := 0, ea := 0, loc := p.1, len := p.2 }
  (x.stores.any fun o => o.id < id && o.accs.any fun q => o.todo.getLsbD q.acc.lane && s.overlap w.team q.acc a) ||
  match p.1 with
  | .remote f _ _ => s.fab.reqs.any fun r => r.fid == f && countedWrite r.kind &&
      match r.owner with
      | .store v k => v == w && k < id
      | _ => false
  | _ => false

/-- Whether an operation may read its source: it has joined or left the window, no page holds it, and every older acquire
of the warp has completed (R303); a message waits for older loads too (R188). -/
def mayRead (x : Warp) (o : CopyOp) : Bool :=
  o.stage == .issued && o.paused.isEmpty && !(x.window.any fun e => e.seq == o.id) &&
  (x.loads.all fun l => l.id ≥ o.id || l.acq.isNone) &&
  match o.kind with
  | .send _ _ _ => (x.loads.all fun l => l.id ≥ o.id || loadBound l) && !queryOpen x o.id
  | _ => true

/-- A request of an operation. -/
def copyReq (w : WarpId) (x : Warp) (o : CopyOp) (va : Nat) (reads : List CopyRow) : Req :=
  { bareReq (.copy w o.id) with core := x.core, slot := x.slot, va := va, reads := reads }

/-- Ranges cut where they pass from line to line. -/
def cutsOf (l : List (Nat × Nat)) : List (Nat × Nat) :=
  l.flatMap fun r => (lineCuts (r.2 / 128 + 2) r.1 r.2).map fun c => (c.1 * 128 + c.2.1, c.2.2)

/-- A list of ranges without its first bytes. -/
def skipBytes (n : Nat) : List (Nat × Nat) → List (Nat × Nat)
  | [] => []
  | (a, k) :: l => if k ≤ n then skipBytes (n - k) l else (a + n, k - n) :: l

/-- Bytes of a list of ranges. -/
def bytesOf (l : List (Nat × Nat)) : Nat := (l.map (·.2)).foldl (· + ·) 0

/-- The source ranges of an operation read in order, as far as they are to be had, each byte once every older write of the
warp to it has performed (steps 2 and 3 of R303): why it stopped, and the bytes so far. -/
def readPieces (w : WarpId) (x : Warp) (id : Nat) (sp : Space) : List (Nat × Nat) → List Byte → State → Eng × List Byte × State
  | [], got, s => (.ok [], got, s)
  | (a, n) :: l, got, s =>
    match s.engRange w id sp a n false none with
    | (.ok p, s) =>
      if p.any fun q => s.olderWrite x w id q then (.hold, got, s)
      else let (bs, s) := s.engGets w p; readPieces w x id sp l (got ++ bs) s
    | (e, s) => (e, got, s)

/-- Bytes written over destination ranges in order, as far as they are to be had (steps 2 and 4 of R303): why it stopped, and
how many have been written so far. -/
def writePieces (w : WarpId) (id : Nat) (sp : Space) : List (Nat × Nat) → List Byte → Nat → State → Eng × Nat × State
  | [], _, put, s => (.ok [], put, s)
  | (a, n) :: l, bs, put, s =>
    match s.engRange w id sp a n true none with
    | (.ok p, s) => writePieces w id sp l (bs.drop n) (put + n) (s.engPuts w p (bs.take n))
    | (e, s) => (e, put, s)

/-- The source bytes of an operation read on from where it stands: all of them, or none while some are not to be had. -/
def moveSource (s : State) (w : WarpId) (x : Warp) (o : CopyOp) (ss : Space) : Option (List Byte) × State :=
  let src := o.rows.map fun r => (r.src, r.len)
  let (e, got, s) := readPieces w x o.id ss (skipBytes o.got.length (cutsOf src)) o.got s
  let s := s.modCopy w o.id fun c => { c with got := got }
  if got.length < bytesOf src then (none, s.copyStop w o false e) else (some got, s)

/-- A local copy moved, page by page as the engine reaches them: every source byte is read before any destination byte is
written, so no write of it reaches a read of it (R303). -/
def moveCopy (s : State) (w : WarpId) (x : Warp) (o : CopyOp) : State :=
  match s.moveSource w x o o.ss with
  | (none, s) => s
  | (some got, s) =>
    let dst := o.rows.map fun r => (r.dst, r.len)
    let (e, put, s) := writePieces w o.id o.ds (skipBytes o.put (cutsOf dst)) (got.drop o.put) o.put s
    if put < bytesOf dst then (s.modCopy w o.id fun c => { c with put := put }).copyStop w o true e
    else s.modCopy w o.id fun c => { c with stage := .moved, rows := [], got := [], put := put }

/-- A step of an operation for each of its rows in order, while each can be taken; with none left, everything of it is on its
way. -/
def moveRows (w : WarpId) (o : CopyOp) (step : CopyRow → State → Bool × State) : List CopyRow → State → State
  | [], s => s.modCopy w o.id fun c => { c with stage := .moved }
  | r :: l, s =>
    match step r s with
    | (true, s) => moveRows w o step l (s.modCopy w o.id fun c => { c with rows := c.rows.drop 1 })
    | (false, s) => s

/-- A row of a `PUT` sent as a write packet within a line of the destination (R179, R304), once its path can be pinned (R180).
It names no ordered stream (R185). -/
def putRow (w : WarpId) (x : Warp) (o : CopyOp) (r : CopyRow) (s : State) : Bool × State :=
  match s.engRange w o.id o.ss r.src r.len false none with
  | (.ok src, s) =>
    if src.any fun p => s.olderWrite x w o.id p then (false, s)
    else
      match s.engRange w o.id .gl r.dst r.len true (some o.fid) with
      | (.ok [(.remote f ad key, _)], s) =>
        let (bs, s) := s.engGets w src
        let p := { s.packetTo .write f with
          score := x.core, swarp := x.slot, addr := ad / 128 * 128, key := key, data := bs.mapIdx fun k b => (ad % 128 + k, b) }
        match s.sendReq p (copyReq w x o r.dst []) (some (pinLine f ad)) with
        | none => (false, s)
        | some s => (true, s.noteWrite w (.remote f ad key) r.len)
      | (e, s) => (false, s.copyStop w o true e)
  | (e, s) => (false, s.copyStop w o false e)

/-- A row of a `GET` asked for, within a line of the source (R181, R304). -/
def getRow (w : WarpId) (x : Warp) (o : CopyOp) (r : CopyRow) (s : State) : Bool × State :=
  match s.engRange w o.id .gl r.src r.len false (some o.fid) with
  | (.ok [(.remote f ad key, n)], s) =>
    if s.olderWrite x w o.id (.remote f ad key, n) then (false, s)
    else
      match s.sendReq { s.packetTo .readReq f with score := x.core, swarp := x.slot, addr := ad, key := key, len := r.len }
          (copyReq w x o r.src [r]) none with
      | none => (false, s)
      | some s => (true, s)
  | (e, s) => (false, s.copyStop w o false e)

/-- Bytes cut into the payloads of packets: each with its place among them, and whether more follow (R179). -/
def payloads (bs : List Byte) : List (Nat × Bool × List Byte) :=
  let n := (bs.length + packetBytes - 1) / packetBytes
  (List.range n).map fun k => (packetBytes * k, k + 1 < n, (bs.drop (packetBytes * k)).take packetBytes)

/-- The pieces of a multicast sent down its tree (R194), each of them to every other member. -/
def moveMcast (s : State) (w : WarpId) (x : Warp) (o : CopyOp) (tree ident off : Nat) (bs : List Byte) : State :=
  let others := (((s.fab.trees.find? fun t => t.ident == tree).map Tree.members).getD []).filter fun f => f != s.fab.fid
  let train := s.fab.nextReq
  let s := if others.isEmpty then s else (payloads bs).foldl (fun (s : State) q =>
    s.sendDown { s.packetTo .multicast s.fab.fid with
        dinc := s.fab.inc, score := x.core, swarp := x.slot, tag := ident, addr := off + q.1, ctx := s.ctxOf w.team, opnd := tree
        len := bs.length, more := q.2.1, train := train, pos := q.1, data := q.2.2.mapIdx fun k b => (k, b) }
      (copyReq w x o ((o.rows.head?.map CopyRow.src).getD 0) []) others) s
  s.modCopy w o.id fun c => { c with stage := .moved, rows := [], got := [] }

/-- The grid step and the tree of a team's grid. -/
def bindOf (s : State) (t : Nat) : Nat × Nat := ((s.gridOf? t).map fun g => (g.2.step, g.2.tree)).getD (0, 0)

/-- A chunk of a collective queued on plane t mod 16, in as many packets as it fills (R179, R199, R310). -/
def sendChunk (s : State) (tree step t : Nat) (bs : List Byte) : State :=
  (payloads bs).foldl (fun (s : State) q =>
    s.queuePacket { s.packetTo .chunk s.fab.fid with
      dinc := s.fab.inc, link := t % 16, tag := step, addr := t, opnd := tree, len := bs.length, more := q.2.1, pos := q.1
      data := q.2.2.mapIdx fun k b => (k, b) }) s

/-- Whether a chunk still waits to leave on its plane. -/
def chunkQueued (s : State) (tree step t : Nat) : Bool :=
  (amGet [] s.fab.links (t % 16)).any fun p => p.kind == .chunk && p.tag == step && p.addr == t && p.opnd == tree

/-- An engine operation transferred (row COPY_TRANSFER). -/
def copyTransfer (s : State) (w : WarpId) (id : Nat) : State :=
  match s.warp? w with
  | none => s
  | some x =>
    match x.copies.find? fun o => o.id == id with
    | none => s
    | some o =>
      if !mayRead x o then s
      else
        match o.kind with
        | .copy => s.moveCopy w x o
        | .put => moveRows w o (putRow w x o) o.rows s
        | .get => moveRows w o (getRow w x o) o.rows s
        | .mcast tree ident off =>
          match s.moveSource w x o .gl with
          | (none, s) => s
          | (some bs, s) => s.moveMcast w x o tree ident off bs
        | .coll t =>
          match s.moveSource w x o .gl with
          | (none, s) => s
          | (some bs, s) =>
            let (step, tree) := s.bindOf w.team
            (s.sendChunk tree step t bs).modCopy w id fun c => { c with stage := .moved, rows := [], got := [] }
        | .send fid ctx tag =>
          match s.moveSource w x o .gl with
          | (none, s) => s
          | (some bs, s) =>
            let n := amGet 0 x.msgCounts fid
            let s := s.modWarp w fun y => { y with msgCounts := amPut 0 y.msgCounts fid ((n + 1) % 2 ^ 24) }
            ((s.sendReq { s.packetTo .message fid with
                score := x.core, swarp := x.slot, ofcnt := n, opnd2 := wkey w + 1, tag := tag, ctx := ctx, len := bs.length
                data := bs.mapIdx fun k b => (k, b) }
              (copyReq w x o ((o.rows.head?.map CopyRow.src).getD 0) []) none).getD s).modCopy w id fun c =>
                { c with stage := .moved, rows := [], got := [] }

/-- Whether packets of an operation are unanswered. -/
def copyWaits (s : State) (w : WarpId) (id : Nat) : Bool := s.fab.reqs.any fun r => r.owner == .copy w id

/-- A message acknowledged: `st` falls (R188). -/
def sendDone (s : State) (w : WarpId) (id : Nat) : State :=
  s.modWarp w fun x => { x with copies := x.copies.filter fun (c : CopyOp) => c.id != id, ctr := x.ctr.add .st false }

/-- An engine operation lands once every byte is written and every packet answered (row COPY_LAND): its scoreboard entry
is freed, and a counter named under `.ntf` rises, here for a `GET` and at the destination for a `PUT` (R304). -/
def copyLand (s : State) (w : WarpId) (id : Nat) : State :=
  match s.warp? w with
  | none => s
  | some x =>
    match x.copies.find? fun o => o.id == id with
    | none => s
    | some o =>
      if o.stage != .moved || s.copyWaits w id then s
      else
        let land := fun (s : State) => ((s.modCopy w id fun c => { c with stage := .landed }).dropSbd w id).fireWaiting
        match o.kind with
        | .send _ _ _ => s.sendDone w id
        | .coll t => let (step, tree) := s.bindOf w.team; if s.chunkQueued tree step t then s else land s
        | .get => match o.ntf with
          | none => land s
          | some c => (land s).trigAdd c 1 none
        | .put => match o.ntf with
          | some c =>
            if !o.lost.isEmpty then land s
            else (land s).sendFree { s.packetTo .increment o.fid with score := x.core, swarp := x.slot, tag := c, opnd := 1 }
          | none => land s
        | _ => land s

/-- A batch finishes once every operation in it has landed (R305): `cb` falls. -/
def batchFinish (s : State) (w : WarpId) (serial : Nat) : State :=
  match s.warp? w with
  | none => s
  | some x =>
    match x.batches.find? fun b => b.serial == serial with
    | none => s
    | some b =>
      if b.ops.all fun id => x.copies.all fun o => o.id != id || o.stage == .landed then
        s.setWarp w { x with
          batches := x.batches.filter fun (c : Batch) => c.serial != serial
          copies := x.copies.filter fun (o : CopyOp) => !b.ops.contains o.id
          ctr := x.ctr.add .cb false }
      else s

end State

end Sys2Proof.Machine
end

