-- ==== Sys2Proof/Machine/Streamer.lean ====
section
/-! DEFINITION. Group 5, the streamer, the fabric and trigger counters (R303 to R313), `SKMRG` apart. -/

namespace Sys2Proof.Machine

/-! ### Batches (R305) -/

namespace State

/-- An operation put in the open batch of a warp: before a 256th joins, the batch is sealed, which waits while `cb`
cannot rise. -/
def joinBatch (s : State) (w : WarpId) (o : CopyOp) : Option State :=
  match s.warp? w with
  | none => none
  | some x =>
    if x.openBatch.length ≥ 255 && x.ctr.cb ≥ 255 then none
    else
      let s := if x.openBatch.length ≥ 255 then s.sealBatch w else s
      some (s.modWarp w fun x => { x with copies := x.copies ++ [o], openBatch := x.openBatch ++ [o.id] })

end State

/-- An operation of an instruction. -/
def copyOp (e : WEntry) (m : Mask) (kind : CopyKind) (ds ss : Space) (rows : List CopyRow) (ntf : Option Nat) (fid : Nat) : CopyOp :=
  { id := e.seq, pc := e.pc, word := e.word, mask := m, kind := kind, ds := ds, ss := ss, rows := rows, ntf := ntf, fid := fid,
    stage := .issued, acks := 0, paused := [], lost := [] }

/-! ### Copies (R303, R304, R395) -/

/-- What a copy-class instruction asks for: its two sides, their base addresses, the sizes and strides that must be
multiples of 4, a row size, its rows in order, and the counter it notifies. -/
structure CopyPlan where
  kind : CopyKind
  ds : Space
  ss : Space
  dst : Nat
  src : Nat
  sizes : List Nat
  row : Nat
  rows : List CopyRow
  ntf : Option Nat
  deriving DecidableEq, Repr

/-- The address of one side in lane `l`: a pair in `.gl`, a register in a 32-bit space. -/
def sideAddr (x : Warp) (sp : Space) (r : Reg) (l : Nat) : Nat :=
  if sp = .gl then (x.rd64n r.field l).toNat else (x.rd r l).toNat
/-- The destination of lane `l`: its base plus sext(C, 10)·16. -/
def copyDst (x : Warp) (sp : Space) (r : Reg) (off : BitVec 10) (l : Nat) : Nat :=
  if sp = .gl then (x.rd64n r.field l + off.signExtend 64 * 16).toNat else (x.rd r l + off.signExtend 32 * 16).toNat
/-- Addresses of a space wrap at its width. -/
def wrapAddr (sp : Space) (a : Nat) : Nat := if sp = .gl then a % 2 ^ 64 else a % 2 ^ 32
/-- The word of the k-th register after a base, in a lane. -/
def nextWord (x : Warp) (r : Reg) (k l : Nat) : Nat := ((x.reg (if r.field = 1023 then 1023 else r.field + k)).at l).toNat

/-- The hull of the ranges of one side (R304): the lowest byte, and the byte past the highest. -/
def hullOf (l : List (Nat × Nat)) : Nat × Nat :=
  match l with
  | [] => (0, 0)
  | r :: l => l.foldl (fun h q => (min h.1 q.1, max h.2 (q.1 + q.2))) (r.1, r.1 + r.2)
def dstHull (p : CopyPlan) : Nat × Nat := hullOf (p.rows.map fun r => (r.dst, r.len))
def srcHull (p : CopyPlan) : Nat × Nat := hullOf (p.rows.map fun r => (r.src, r.len))

/-- The package of a remote side: its first page decides, and every other page that is mapped names the same one
(R304, R395). -/
def State.remoteSide (s : State) (w : WarpId) (write : Bool) (h : Nat × Nat) : Eng × Nat × State :=
  let use := if write then Use.engWrite else .engRead
  let one := fun (s : State) (va : Nat) => s.xlate (s.coreOf w) (s.ctxOf w.team) va use
  match one s h.1 with
  | (.fail code, s) => (.fail code h.1, 0, s)
  | (.absent, s) => (.absent h.1, 0, s)
  | (.ok e, s) =>
    if pteType e.leaf ≠ 1 then (.fail (if pteType e.leaf = 2 then 0x16 else 0x03) h.1, 0, s)
    else
      let fid := leafFid e
      let pages := (List.range ((h.2 - 1) / 2 ^ 19 - h.1 / 2 ^ 19)).map fun k => (h.1 / 2 ^ 19 + k + 1) * 2 ^ 19
      let r := pages.foldl (fun (acc : Option Nat × State) va =>
        match acc.1 with
        | some _ => acc
        | none =>
          match one acc.2 va with
          | (.ok e, s) => (if pteType e.leaf = 1 && leafFid e = fid then none else some va, s)
          | (_, s) => (none, s)) (none, s)
      match r.1 with
      | some va => (.fail 0x03 va, 0, r.2)
      | none => (.ok [], fid, r.2)

/-- The first page of a `.gl` side that must be local. -/
def State.localSide (s : State) (w : WarpId) (write : Bool) (va : Nat) : Eng × State :=
  match s.xlate (s.coreOf w) (s.ctxOf w.team) va (if write then Use.engWrite else .engRead) with
  | (.fail code, s) => (.fail code va, s)
  | (.absent, s) => (.absent va, s)
  | (.ok e, s) =>
    match pteType e.leaf with
    | 0 => (.ok [], s)
    | 1 => (.fail 0x03 va, s)
    | _ => (.fail 0x16 va, s)

/-- The check of one side at issue (R393, R395): the bound of a scratch space over the whole hull, or the first page. -/
def State.sideCheck (s : State) (w : WarpId) (sp : Space) (write remote : Bool) (first : Nat) (h : Nat × Nat) : Eng × Nat × State :=
  if sp = .gl then
    if remote then s.remoteSide w write h
    else let (e, s) := s.localSide w write first; (e, 0, s)
  else if h.2 > s.spaceSize w.team sp then (.fail 0x14 (s.spaceSize w.team sp), 0, s)
  else (.ok [], 0, s)

/-- The effect of a check at issue that did not pass: a fault or a park of the warp. -/
def engEff (s : State) (w : WarpId) (m : Mask) (write : Bool) : Eng → Eff
  | .ok _ => .wait s
  | .hold => .wait s
  | .fail code va => .trap s (Trap.at code m va) false
  | .absent va =>
    if ((s.warp? w).map fun x => x.refused.contains (State.pageOf va)).getD false then .trap s (Trap.at 0x10 m va) false
    else .park s m [(State.pageOf va, va, write)] false

/-- A copy-class instruction at issue (step 1 of R303): it checks, takes a scoreboard entry for a destination in the
team's virtual scratch, joins the open batch and retires. -/
def copyBody (plan : Warp → Mask → Nat → CopyPlan) : Body := withWarp fun x w e m s =>
  let p := plan x m ((lowest m).getD 0)
  if p.rows.isEmpty then .done s
  else if p.dst % 4 ≠ 0 then .trap s (Trap.at 0x13 m p.dst) false
  else if p.src % 4 ≠ 0 then .trap s (Trap.at 0x13 m p.src) false
  else if (p.sizes.any fun n => n % 4 != 0) || p.row > 4096 || p.ntf.any fun c => !s.trigIn (s.partOf w.team) c then
    .trap s (Trap.warp 0x03 m) false
  else
    let first := p.rows.head?.getD { src := 0, dst := 0, len := 0 }
    match s.sideCheck w p.ds true (p.kind == .put) first.dst (dstHull p) with
    | (.ok _, f1, s) =>
      match s.sideCheck w p.ss false (p.kind == .get) first.src (srcHull p) with
      | (.ok _, f2, s) =>
        let scr := p.ds == .sc || p.ds == .cl
        if scr && (s.core x.core).scoreboard.length ≥ 64 then .wait s
        else
          match s.joinBatch w (copyOp e m p.kind p.ds p.ss p.rows p.ntf (if p.kind == .put then f1 else f2)) with
          | none => .wait s
          | some s =>
            let h := dstHull p
            let cl := p.ds == .cl
            let entry : Sbd := { team := w.team, sp := p.ds, lo := s.scrIndex w.team cl h.1, hi := s.scrIndex w.team cl h.2,
                                 warp := w.widx, id := e.seq }
            .done (if scr then s.modCore x.core fun c => { c with scoreboard := c.scoreboard ++ [entry] } else s)
      | (r, _, s) => engEff s w m false r
    | (r, _, s) => engEff s w m true r

/-- Rows of equal length, none where a size is 0. -/
def rowsOf (n : Nat) (l : List (Nat × Nat)) : List CopyRow :=
  if n = 0 then [] else l.map fun r => { src := r.1, dst := r.2, len := n }

/-- `CPY` (R304). -/
def bodyCpy (ds : Space) (ss : Space) (d : Reg) (a : Reg) (b : Reg) (off : BitVec 10) : Body :=
  copyBody fun x _ l =>
    let n := (x.rd b l).toNat
    let d0 := copyDst x ds d off l
    let s0 := sideAddr x ss a l
    { kind := .copy, ds := ds, ss := ss, dst := d0, src := s0, sizes := [n], row := 0, rows := rowsOf n [(s0, d0)], ntf := none }
/-- `CPY` dispatched by the warp that acts. -/
def execCpy (g : Guard) (ds ss : Space) (d a b : Reg) (off : BitVec 10) (s : State) : Host.Outcome State Fault Refusal :=
  issue .normal (.cpy g ds ss d a b off) (bodyCpy ds ss d a b off) s

/-- `CPYT` (R304: rows with strides). -/
def bodyCpyt (ds : Space) (ss : Space) (d : Reg) (a : Reg) (b : Reg) (off : BitVec 10) : Body :=
  copyBody fun x _ l =>
    let v := (x.rd b l).toNat
    let rb := v % 2 ^ 16
    let sst := nextWord x b 1 l
    let dst := nextWord x b 2 l
    let d0 := copyDst x ds d off l
    let s0 := sideAddr x ss a l
    let rows := if sst = 0 || dst = 0 then [] else
      rowsOf rb ((List.range (v / 2 ^ 16)).map fun k => (s0 + k * sst, d0 + k * dst))
    { kind := .copy, ds := ds, ss := ss, dst := d0, src := s0, sizes := [rb, sst, dst], row := 0, rows := rows, ntf := none }
/-- `CPYT` dispatched by the warp that acts. -/
def execCpyt (g : Guard) (ds ss : Space) (d a b : Reg) (off : BitVec 10) (s : State) : Host.Outcome State Fault Refusal :=
  issue .normal (.cpyt g ds ss d a b off) (bodyCpyt ds ss d a b off) s

/-- The active lanes with their ranks. -/
def ranked (m : Mask) : List (Nat × Nat) := (laneList m).mapIdx fun q i => (q, i)

/-- `CPYX` (R304: an indexed gather). -/
def bodyCpyx (ds : Space) (ss : Space) (d : Reg) (a : Reg) (b : Reg) (off : BitVec 10) : Body :=
  copyBody fun x m l =>
    let rb := nextWord x b 1 l % 2 ^ 13
    let d0 := copyDst x ds d off l
    let s0 := sideAddr x ss a l
    let rows := rowsOf rb ((ranked m).map fun (r : Nat × Nat) => (wrapAddr ss (s0 + (x.rd b r.2).toNat * rb), d0 + r.1 * rb))
    { kind := .copy, ds := ds, ss := ss, dst := d0, src := s0, sizes := [rb], row := rb, rows := rows, ntf := none }
/-- `CPYX` dispatched by the warp that acts. -/
def execCpyx (g : Guard) (ds ss : Space) (d a b : Reg) (off : BitVec 10) (s : State) : Host.Outcome State Fault Refusal :=
  issue .normal (.cpyx g ds ss d a b off) (bodyCpyx ds ss d a b off) s

/-- `CPYO` (R304: an indexed scatter, the highest lane of a row winning). -/
def bodyCpyo (ds : Space) (ss : Space) (d : Reg) (a : Reg) (b : Reg) (off : BitVec 10) : Body :=
  copyBody fun x m l =>
    let rb := nextWord x b 1 l % 2 ^ 13
    let d0 := copyDst x ds d off l
    let s0 := sideAddr x ss a l
    let rows := rowsOf rb ((ranked m).map fun (r : Nat × Nat) => (s0 + r.1 * rb, wrapAddr ds (d0 + (x.rd b r.2).toNat * rb)))
    { kind := .copy, ds := ds, ss := ss, dst := d0, src := s0, sizes := [rb], row := rb, rows := rows, ntf := none }
/-- `CPYO` dispatched by the warp that acts. -/
def execCpyo (g : Guard) (ds ss : Space) (d a b : Reg) (off : BitVec 10) (s : State) : Host.Outcome State Fault Refusal :=
  issue .normal (.cpyo g ds ss d a b off) (bodyCpyo ds ss d a b off) s

/-- A transfer of n bytes cut where one side passes from line to line (R179). -/
def cutRows (s0 d0 n : Nat) (byDst : Bool) : List CopyRow :=
  ((State.lineCuts (n / 128 + 2) (if byDst then d0 else s0) n).foldl (fun (acc : List CopyRow × Nat) c =>
    (acc.1 ++ [{ src := s0 + acc.2, dst := d0 + acc.2, len := c.2.2 }], acc.2 + c.2.2)) ([], 0)).1

/-- `PUT` (R304). -/
def bodyPut (ss : Space) (ntf : Bool) (d : Reg) (a : Reg) (b : Reg) (off : BitVec 10) : Body :=
  copyBody fun x _ l =>
    let n := (x.rd b l).toNat
    let d0 := copyDst x .gl d off l
    let s0 := sideAddr x ss a l
    { kind := .put, ds := .gl, ss := ss, dst := d0, src := s0, sizes := [n], row := 0, rows := cutRows s0 d0 n true
      ntf := if ntf then some (nextWord x b 1 l % 4096) else none }
/-- `PUT` dispatched by the warp that acts. -/
def execPut (g : Guard) (ss : Space) (ntf : Bool) (d a b : Reg) (off : BitVec 10) (s : State) : Host.Outcome State Fault Refusal :=
  issue .normal (.put g ss ntf d a b off) (bodyPut ss ntf d a b off) s

/-- `GET` (R304). -/
def bodyGet (ds : Space) (ntf : Bool) (d : Reg) (a : Reg) (b : Reg) (off : BitVec 10) : Body :=
  copyBody fun x _ l =>
    let n := (x.rd b l).toNat
    let d0 := copyDst x ds d off l
    let s0 := sideAddr x .gl a l
    { kind := .get, ds := ds, ss := .gl, dst := d0, src := s0, sizes := [n], row := 0, rows := cutRows s0 d0 n false
      ntf := if ntf then some (nextWord x b 1 l % 4096) else none }
/-- `GET` dispatched by the warp that acts. -/
def execGet (g : Guard) (ds : Space) (ntf : Bool) (d a b : Reg) (off : BitVec 10) (s : State) : Host.Outcome State Fault Refusal :=
  issue .normal (.get g ds ntf d a b off) (bodyGet ds ntf d a b off) s

/-! ### Batches -/

/-- `CSEAL` (R305). -/
def bodyCseal (d : Reg) : Body :=
  withWarp fun x w _ m s =>
  if !x.openBatch.isEmpty && x.ctr.cb ≥ 255 then .wait s
  else
    let s := s.sealBatch w
    let n := ((s.warp? w).map Warp.serial).getD 0
    putReg s w d.field m .uniform fun _ => BitVec.ofNat 32 n
/-- `CSEAL` dispatched by the warp that acts. -/
def execCseal (g : Guard) (d : Reg) (s : State) : Host.Outcome State Fault Refusal :=
  issue .normal (.cseal g d) (bodyCseal d) s

/-- `CWAIT` (R305). -/
def bodyCwait (a : Reg) : Body :=
  withWarp fun x _ _ m s =>
  let n := (once x a m).toNat
  if n ≠ 0 && x.batches.any fun b => b.serial == n then .wait s else .done s
/-- `CWAIT` dispatched by the warp that acts. -/
def execCwait (g : Guard) (a : Reg) (s : State) : Host.Outcome State Fault Refusal :=
  issue .normal (.cwait g a) (bodyCwait a) s

/-! ### Shadows (R171 to R175, R306, R398) -/

/-- A range of leaves named by the lowest active lane, checked as R398 gives; with an empty range the instruction is a no-op
(R292). -/
def withLeaves (a : Pair) (b : Reg) (f : Warp → WarpId → WEntry → Nat → Nat → List Tlb → State → Eff) : Body :=
  withWarp fun x w e m s =>
    let l := (lowest m).getD 0
    let va := (x.rd64 a l).toNat
    let n := (x.rd b l).toNat
    if n = 0 then .done s
    else
      let (ls, s) := s.warpLeaves w va n
      match State.leavesBad ls (s.isSys w.team) with
      | some (code, va) => .trap s (Trap.at code m va) false
      | none => f x w e va n (State.leavesOf ls) s

/-- `SHOPEN` (R171, R306). -/
def bodyShopen (a : Pair) (b : Reg) : Body :=
  withLeaves a b fun _ w _ _ _ ls s =>
  match s.openLeaves w.team ls with
  | (true, s) => .done s
  | (false, s) => .wait s
/-- `SHOPEN` dispatched by the warp that acts. -/
def execShopen (g : Guard) (a : Pair) (b : Reg) (s : State) : Host.Outcome State Fault Refusal :=
  issue .normal (.shopen g a b) (bodyShopen a b) s

/-- `PUBLISH` (R173, R306: a release at its scope, then one instant for every leaf). The spec names no object that keeps the
signature which the release attaches: here it goes nowhere (log 94). -/
def bodyPublish (sc : Scope) (a : Pair) (b : Reg) : Body :=
  withLeaves a b fun x w e va n ls s =>
  let p := s.partOf w.team
  if s.engWrites w.team va n || !s.olderDone w x e.seq sc || ls.any fun l => s.publishHeld p l then .wait s
  else
    let (_, s) := s.release w sc
    .done (ls.foldl (fun s l => s.publishLeaf l) s)
/-- `PUBLISH` dispatched by the warp that acts. -/
def execPublish (g : Guard) (sc : Scope) (a : Pair) (b : Reg) (s : State) : Host.Outcome State Fault Refusal :=
  issue .normal (.publish g sc a b) (bodyPublish sc a b) s

/-- `SHDROP` (R175, R306). -/
def bodyShdrop (a : Pair) (b : Reg) : Body :=
  withLeaves a b fun _ _ _ _ _ ls s => .done (ls.foldl (fun s l => s.dropLeaf l) s)
/-- `SHDROP` dispatched by the warp that acts. -/
def execShdrop (g : Guard) (a : Pair) (b : Reg) (s : State) : Host.Outcome State Fault Refusal :=
  issue .normal (.shdrop g a b) (bodyShdrop a b) s

/-! ### Multicast, landing buffers, messages (R188 to R195, R307 to R310) -/

/-- The tree of an identifier among those the package belongs to. -/
def State.treeOf (s : State) (n : Nat) : Option Tree := s.fab.trees.find? fun t => t.ident == n && n != 0

/-- `MCAST` (R194, R307, R421). -/
def bodyMcast (a : Pair) (b : Reg) (c : Reg) : Body :=
  withWarp fun x w e m s =>
  let l := (lowest m).getD 0
  let n := (x.rd b l).toNat % 2 ^ 13
  let v := nextWord x b 1 l
  let off := (x.rd c l).toNat
  match s.treeOf (v / 2 ^ 16) with
  | none => .trap s (Trap.warp 0x03 m) false
  | some t =>
    if n = 0 || n > 4096 || off % 4 ≠ 0 then .trap s (Trap.warp 0x03 m) false
    else if t.broken then .trap s (Trap.warp 0x31 m) false
    else
      match s.joinBatch w (copyOp e m (.mcast t.ident (v % 2 ^ 16) off) .gl .gl
          [{ src := (x.rd64 a l).toNat, dst := 0, len := n }] none 0) with
      | none => .wait s
      | some s => .done s
/-- `MCAST` dispatched by the warp that acts. -/
def execMcast (g : Guard) (a : Pair) (b c : Reg) (s : State) : Host.Outcome State Fault Refusal :=
  issue .normal (.mcast g a b c) (bodyMcast a b c) s

/-- `LREG` (R193, R308, R399). -/
def bodyLreg (d : Reg) (a : Pair) (b : Reg) (c : Reg) : Body :=
  withWarp fun x w _ m s =>
  let l := (lowest m).getD 0
  let buf := (x.rd64 a l).toNat
  let n := (x.rd b l).toNat
  let v := (x.rd c l).toNat
  let ctr := if field v 31 1 = 1 then some (field v 16 12) else none
  let cx := s.ctxOf w.team
  if buf % 256 ≠ 0 then .trap s (Trap.at 0x13 m buf) false
  else if n = 0 || n % 256 ≠ 0 || ctr.any fun k => !s.trigIn (s.partOf w.team) k then .trap s (Trap.warp 0x03 m) false
  else
    let r : Landing := { ctx := cx, ident := v % 2 ^ 16, buf := buf, len := n, ctr := ctr, closed := false }
    if s.fab.landings.length ≥ 1024 then putReg s w d.field m .uniform fun _ => 1
    else if s.fab.landings.any fun q => q.ctx == cx && q.ident == r.ident then putReg s w d.field m .uniform fun _ => 2
    else putReg (s.modFab fun f => { f with landings := f.landings ++ [r] }) w d.field m .uniform fun _ => 0
/-- `LREG` dispatched by the warp that acts. -/
def execLreg (g : Guard) (d : Reg) (a : Pair) (b c : Reg) (s : State) : Host.Outcome State Fault Refusal :=
  issue .normal (.lreg g d a b c) (bodyLreg d a b c) s

/-- `LDEREG` (R195, R308): the registration closes to new arrivals, and goes once every delivery accepted under it has
landed. -/
def bodyLdereg (b : Reg) : Body :=
  withWarp fun x w _ m s =>
  let n := (once x b m).toNat % 2 ^ 16
  let cx := s.ctxOf w.team
  let mine := fun (q : Landing) => q.ctx == cx && q.ident == n
  if s.fab.landings.any fun q => mine q && !q.begun.isEmpty then
    .wait (s.modFab fun f => { f with landings := f.landings.map fun q => if mine q then { q with closed := true } else q })
  else .done (s.modFab fun f => { f with landings := f.landings.filter fun q => !mine q })
/-- `LDEREG` dispatched by the warp that acts. -/
def execLdereg (g : Guard) (b : Reg) (s : State) : Host.Outcome State Fault Refusal :=
  issue .normal (.ldereg g b) (bodyLdereg b) s

/-- `SEND` (R188, R309: the bytes are read after it retires, and `st` falls at its acknowledgement). -/
def bodySend (len : Nat) (a : Pair) (b : Reg) (c : Reg) : Body :=
  withWarp fun x w e m s =>
  let l := (lowest m).getD 0
  let v := (x.rd b l).toNat
  if v / 2 ^ 29 ≠ 0 || field v 12 4 ≠ 0 then .trap s (Trap.warp 0x03 m) false
  else
    let o := copyOp e m (.send (field v 16 13) (v % 2 ^ 12) (x.rd c l).toNat) .gl .gl
      [{ src := (x.rd64 a l).toNat, dst := 0, len := len }] none 0
    .done (s.modWarp w fun x => { x with copies := x.copies ++ [o] })
/-- `SEND` dispatched by the warp that acts. -/
def execSend (g : Guard) (len : Nat) (a : Pair) (b c : Reg) (s : State) : Host.Outcome State Fault Refusal :=
  issue .normal (.send g len a b c) (bodySend len a b c) s

namespace State

/-! #### Delivery -/

/-- Bytes that the device writes into a context's memory as engine writes; a page that refuses the write keeps its
bytes. -/
def ctxWrite (s : State) (ctx va : Nat) (bs : List Byte) : State :=
  ((lineCuts (bs.length / 128 + 2) va bs.length).foldl (fun (acc : List Byte × State) (k : Nat × Nat × Nat) =>
    let a := k.1 * 128 + k.2.1
    match acc.2.devXlate ctx a .engWrite with
    | (.ok e, s) =>
      match s.engLoc e a true with
      | .mem pa key cls => (acc.1.drop k.2.2, (s.homeWrite pa key cls (acc.1.take k.2.2)).markTwin pa k.2.2)
      | _ => (acc.1.drop k.2.2, s)
    | (_, s) => (acc.1.drop k.2.2, s)) (bs, s)).2

/-- Whether a delivery to a page of a context must wait for its twin (R364). -/
def ctxHeld (s : State) (ctx va n : Nat) : Bool :=
  (lineCuts (n / 128 + 2) va n).any fun k =>
    match s.devXlate ctx (k.1 * 128 + k.2.1) .engWrite with
    | (.ok e, s) =>
      match s.engLoc e (k.1 * 128 + k.2.1) true with
      | .mem pa key _ => s.homeHeld pa key
      | _ => false
    | _ => false

/-- Whether an arrival matches a posted receive (R188). -/
def matches' (r : RSlot) (p : Packet) : Bool :=
  r.posted && r.ctx == p.ctx && (r.src ^^^ p.sfid) &&& r.srcMask == 0 && (r.tag ^^^ p.tag) &&& r.tagMask == 0 &&
  p.data.length ≤ r.len

/-- The completion word of an arrival (Table 9-4). -/
def doneWord (p : Packet) : DWord :=
  BitVec.ofNat 64 (2 ^ 63 + 2 ^ 52 * (p.data.length % 512) + 2 ^ 32 * (p.sfid % 8192) + p.tag % 2 ^ 32)

/-- An arrival delivered to a slot (R189): its data, then the completion word. -/
def deliver (s : State) (t slot : Nat) (r : RSlot) (p : Packet) : State :=
  (s.ctxWrite r.ctx r.buf (p.data.map (·.2))).modTeam t fun x =>
    { x with rslots := amSet x.rslots slot { r with posted := false, word := doneWord p } }

end State

/-- `RPOST` (R188, R190, R309). -/
def bodyRpost (len : Nat) (d : Reg) (a : Pair) (b : Reg) (c : Pair) : Body :=
  withWarp fun x w _ m s =>
  let l := (lowest m).getD 0
  let v := (x.rd b l).toNat
  let used := ((s.team? w.team).map fun t => t.rslots.map (·.1)).getD []
  if v / 2 ^ 29 ≠ 0 || field v 13 3 ≠ 0 then .trap s (Trap.warp 0x03 m) false
  else
    match State.lowestFree used 64 with
    | none => putReg s w d.field m .uniform fun _ => 0xFFFFFFFF#32
    | some k =>
      let r : RSlot := { posted := true, order := s.fab.nextPost, src := field v 16 13, srcMask := v % 2 ^ 13,
                         tag := (x.rd64 c l).toNat % 2 ^ 32, tagMask := (x.rd64 c l).toNat / 2 ^ 32,
                         buf := (x.rd64 a l).toNat, ctx := s.ctxOf w.team, len := len, word := 0 }
      let hit := s.fab.overflow.find? (State.matches' r)
      if hit.any fun p => s.ctxHeld r.ctx r.buf p.data.length then .wait s
      else
        let left := match hit with
          | some p => s.fab.overflow.erase p
          | none => s.fab.overflow
        let s := s.modFab fun f => { f with nextPost := f.nextPost + 1, overflow := left }
        let s := match hit with
          | some p => s.deliver w.team k r p
          | none => s.modTeam w.team fun t => { t with rslots := amSet t.rslots k r }
        putReg s w d.field m .uniform fun _ => BitVec.ofNat 32 k
/-- `RPOST` dispatched by the warp that acts. -/
def execRpost (g : Guard) (len : Nat) (d : Reg) (a : Pair) (b : Reg) (c : Pair) (s : State) : Host.Outcome State Fault Refusal :=
  issue .normal (.rpost g len d a b c) (bodyRpost len d a b c) s

/-- `RPOLL` (R168, R189, R309: DONE read as 1 is an acquire at chip scope and frees the slot). -/
def bodyRpoll (d : Pair) (a : Reg) : Body :=
  withWarp fun x w e m s =>
  let v := (once x a m).toNat
  if v / 64 ≠ 0 then .trap s (Trap.warp 0x03 m) false
  else
    let word := match (s.team? w.team).bind fun t => amFind t.rslots v with
      | some r => r.word
      | none => 0
    let s := if word.getLsbD 63 then
        (s.modTeam w.team fun t => { t with rslots := amErase t.rslots v }).l1InvalidateAll x.core
      else s
    putPair (s.uncount w e.instr) w d.field m .uniform fun _ => word
/-- `RPOLL` dispatched by the warp that acts. -/
def execRpoll (g : Guard) (d : Pair) (a : Reg) (s : State) : Host.Outcome State Fault Refusal :=
  issue .normal (.rpoll g d a) (bodyRpoll d a) s

/-- `COLL` (R199, R310, R421). -/
def bodyColl (a : Reg) : Body :=
  withWarp fun x w e m s =>
  let t := (once x a m).toNat
  match s.gridOf? w.team with
  | none => .trap s (Trap.warp 0x03 m) false
  | some (gi, g) =>
    if !g.cben || t ≥ g.total then .trap s (Trap.warp 0x03 m) false
    else if (s.treeOf g.tree).all Tree.broken then .trap s (Trap.warp 0x31 m) false
    else
      let again := g.sent.contains t
      let o := copyOp e m (.coll t) .gl .gl [{ src := (g.rbase + t * g.chunk) % 2 ^ 64, dst := 0, len := g.chunk }] none 0
      match s.joinBatch w { o with stage := if again then .landed else .issued } with
      | none => .wait s
      | some s => .done (if again then s else s.modGrid gi fun g => { g with sent := g.sent ++ [t] })
/-- `COLL` dispatched by the warp that acts. -/
def execColl (g : Guard) (a : Reg) (s : State) : Host.Outcome State Fault Refusal :=
  issue .normal (.coll g a) (bodyColl a) s

/-! ### Trigger counters (R196, R197, R312, R313, R396) -/

/-- The fields of an operation record that `TARM` checks (R396). -/
def opRecOk (l : List Byte) : Bool :=
  let k := bytesNat l 0 1
  1 ≤ k && k ≤ 3 && (if k = 3 then 1 ≤ bytesNat l 1 1 && bytesNat l 1 1 ≤ 3 else bytesNat l 1 1 == 0) && bytesNat l 2 1 ≤ 63 &&
  (k != 2 || (1 ≤ bytesNat l 16 8 && bytesNat l 16 8 ≤ 256)) && bytesNat l 3 5 == 0 && bytesNat l 0x20 32 == 0

/-- The handle of the next armed operation: the next number, from 1 to 2^32 - 1, that no armed operation has (R312, log 14). -/
def State.freeArm (s : State) : Nat :=
  let wrap := fun k => (s.fab.nextArm - 1 + k) % (2 ^ 32 - 1) + 1
  (((List.range 1025).map wrap).find? fun h => !(s.fab.armed.any fun a => a.handle == h)).getD s.fab.nextArm

/-- `TARM` (R196, R197, R312, R396). -/
def bodyTarm (d : Reg) (a : Reg) (b : Pair) (c : Pair) : Body :=
  withWarp fun x w e m s =>
  let l := (lowest m).getD 0
  let c' := (x.rd a l).toNat % 4096
  let va := (x.rd64 c l).toNat
  if va % 64 ≠ 0 then .trap s (Trap.at 0x13 m va) false
  else if !s.trigIn (s.partOf w.team) c' then .trap s (Trap.warp 0x03 m) false
  else
    match s.readVa w e.seq va 64 with
    | (.bytes r, s) =>
      let s := s.inboxDrop w e.seq
      if !opRecOk r then .trap s (Trap.warp 0x03 m) false
      else if s.fab.armed.length ≥ 1024 then putReg s w d.field m .uniform fun _ => 0
      else
        let h := s.freeArm
        let o : Armed := { handle := h, ctr := c', thr := (x.rd64 b l).toInt, ctx := s.ctxOf w.team, team := w.team
                           order := s.fab.nextOrder, opRec := r, due := false }
        let s := s.modFab fun f =>
          { f with armed := f.armed ++ [o], nextArm := h % (2 ^ 32 - 1) + 1, nextOrder := f.nextOrder + 1 }
        putReg (s.fireReached c' (some (w, e.seq))) w d.field m .uniform fun _ => BitVec.ofNat 32 h
    | (g, s) => gotEff s w m g
/-- `TARM` dispatched by the warp that acts. -/
def execTarm (g : Guard) (d a : Reg) (b c : Pair) (s : State) : Host.Outcome State Fault Refusal :=
  issue .normal (.tarm g d a b c) (bodyTarm d a b c) s

/-- `TADD` (R196, R197, R313: a release at chip scope). -/
def bodyTadd (a : Reg) (b : Pair) : Body :=
  withWarp fun x w e m s =>
  let l := (lowest m).getD 0
  let c := (x.rd a l).toNat % 4096
  if !s.trigIn (s.partOf w.team) c then .trap s (Trap.warp 0x03 m) false
  else if !s.olderDone w x e.seq .c then .wait s
  else
    let (_, s) := s.release w .c
    .done ((s.trigAdd c (x.rd64 b l).toInt (some (w, e.seq))).uncount w e.instr)
/-- `TADD` dispatched by the warp that acts. -/
def execTadd (g : Guard) (a : Reg) (b : Pair) (s : State) : Host.Outcome State Fault Refusal :=
  issue .normal (.tadd g a b) (bodyTadd a b) s

/-- `TRD` (R196, R313). -/
def bodyTrd (d : Pair) (a : Reg) : Body :=
  withWarp fun x w e m s =>
  let c := (once x a m).toNat % 4096
  if !s.trigIn (s.partOf w.team) c then .trap s (Trap.warp 0x03 m) false
  else putPair (s.uncount w e.instr) w d.field m .uniform fun _ => BitVec.ofInt 64 (s.trigGet c)
/-- `TRD` dispatched by the warp that acts. -/
def execTrd (g : Guard) (d : Pair) (a : Reg) (s : State) : Host.Outcome State Fault Refusal :=
  issue .normal (.trd g d a) (bodyTrd d a) s

/-- `TDISARM` (R196, R312): the handle names the operation, of whichever context. -/
def bodyTdisarm (d : Reg) (a : Reg) : Body :=
  withWarp fun x w _ m s =>
  let h := (once x a m).toNat
  let hit := fun (o : Armed) => o.handle == h && !o.due
  let found := s.fab.armed.any hit
  putReg (s.modFab fun f => { f with armed := f.armed.filter fun o => !hit o }) w d.field m .uniform fun _ =>
    if found then 1 else 0
/-- `TDISARM` dispatched by the warp that acts. -/
def execTdisarm (g : Guard) (d a : Reg) (s : State) : Host.Outcome State Fault Refusal :=
  issue .normal (.tdisarm g d a) (bodyTdisarm d a) s

end Sys2Proof.Machine
end

