-- ==== Sys2Proof/Machine/Matrix.lean ====
section
/-! DEFINITION. Group 6, the matrix instructions (R315 to R329), and their execution at the engine. -/

namespace Sys2Proof.Machine

/-! ### Elements (R209, R317 to R320) -/

/-- Element k of a row whose bytes read as the number `n` (R209). -/
def packedElem (f : Slot) (n k : Nat) : Num :=
  match elemOf f.efmt with
  | some .lq2 => (lq2Decode (field n (16 * (k / 8)) 16)).getD (k % 8) .nan
  | some e => e.value (field n (e.bits * k) e.bits)
  | none => .nan

/-- Bytes of a row of 64 elements (Tables 16-3 and 16-4). -/
def rowBytes (f : Slot) : Nat := 8 * ((elemOf f.efmt).map Elem.bits).getD 0

/-- The scale of a block in a byte string that reads as `n`, from byte `base` (R319). -/
def blockScale (f : Slot) (n base q : Nat) : Num :=
  if f.sfmt = 0 then .fin false 1 1 else scaleValue f.sfmt (field n (8 * (base + q * scaleBytes f.sfmt)) 32)

/-- The number that a run of registers of one lane reads as (R317). -/
def laneString (regs : List (List Word)) (i : Nat) : Nat :=
  (regs.map fun r => (r.getD i 0).toNat).foldr (fun x acc => x + 2 ^ 32 * acc) 0

/-- The dense depth of a product (Table 16-3). -/
def depthOf (sa : Slot) (sparse : Bool) : Nat :=
  ((mmaShape sa.efmt).map fun x => if sparse then x.2.2.1 else x.2.1).getD 0
/-- Elements of A that a lane holds, and the registers that hold them. -/
def keptOf (sa : Slot) : Nat := ((mmaShape sa.efmt).map fun x => x.2.1).getD 0
def fragRegs (sa : Slot) : Nat := ((mmaShape sa.efmt).map fun x => x.1).getD 0

/-- The scratch bytes of a product (R318, R319). -/
def productHull (sa sb : Slot) (sparse : Bool) : Nat :=
  depthOf sa sparse * rowBytes sb + 64 * scaleRun sb (depthOf sa sparse)

/-- The dense index of kept element t of a lane (R320). -/
def keptIndex (meta' t : Nat) : Nat := 16 * (t / 8) + field meta' (4 * t) 4

/-- The terms that one group of 32 dense indices adds in row i, column j (R217, R322): exact products, and an exact zero
where no element of a sparse row stands. `a` is lane i's byte string, `mt` its metadata, `b` the B tile's rows, `bsc`
the bytes of its scales. -/
def groupTerms (sa sb : Slot) (sparse : Bool) (a mt : Nat) (b : List Nat) (bsc j g : Nat) : List Num :=
  let sA := fun k => blockScale sa a (4 * fragRegs sa) (k / 2 ^ sa.log2blk)
  let sB := fun k => if sb.sfmt = 0 then Num.fin false 1 1
    else scaleValue sb.sfmt (field bsc (8 * (64 * (k / 2 ^ sb.log2blk) + j) * scaleBytes sb.sfmt) 32)
  let bv := fun k => (sB k).mul (packedElem sb (b.getD k 0) j)
  ((List.range 32).map (32 * g + ·)).flatMap fun k =>
    if sparse then
      match (List.range (keptOf sa)).filter fun t => keptIndex mt t == k with
      | [] => [Num.fin false 0 1]
      | l => l.map fun t => ((sA k).mul (packedElem sa a t)).mul (bv k)
    else [((sA k).mul (packedElem sa a k)).mul (bv k)]

/-- `mma_accumulate` (R217). -/
def mmaAccumulate (sa sb : Slot) (sparse : Bool) (a mt : Nat) (b : List Nat) (bsc j : Nat) (acc : Word) : Word :=
  (List.range (depthOf sa sparse / 32)).foldl (fun acc g =>
    let sum := rne32 (exactSum false (groupTerms sa sb sparse a mt b bsc j g))
    w32 (rne32 ((f32 acc).add false (fmtF32.value sum)))) acc

/-! ### Tiles -/

/-- The element of a tile in a row and a column. -/
def tileAt (x : Warp) (t i j : Nat) : Word := amGet 0 x.tiles (t * 2048 + 64 * i + j)
/-- Elements of a tile replaced in the active rows, for columns of a range. -/
def setTile (x : Warp) (t : Nat) (m : Mask) (j0 n : Nat) (f : Nat → Nat → Word) : Warp :=
  { x with tiles := (laneList m).foldl (fun (ts : AMap Word) i =>
      (List.range n).foldl (fun (ts : AMap Word) k => amPut 0 ts (t * 2048 + 64 * i + (j0 + k)) (f i (j0 + k))) ts) x.tiles }

/-- The bytes that a row of a tile is stored as (Table 16-4). -/
def tileRow (slot : Nat → Slot) (x : Warp) (t : Nat) (cvt : Bool) (n i : Nat) : List Byte :=
  if cvt then
    let f := slot n
    let w := ((elemOf f.efmt).map Elem.bits).getD 0
    leBytes (rowBytes f) (packElems w ((List.range 64).map fun j => roundFmt (f32 (tileAt x t i j)) f (64 * i + j)))
  else (List.range 64).flatMap fun j => leBytes 4 (tileAt x t i j).toNat
/-- Bytes of one stored row. -/
def tileRowLen (slot : Nat → Slot) (cvt : Bool) (n : Nat) : Nat := if cvt then rowBytes (slot n) else 256

/-! ### Issue (R315, R321, R326) -/

/-- A tile operation of an instruction that has passed its checks, with the registers it reads. -/
def tileOp (x : Warp) (e : WEntry) (m : Mask) (tile : Nat) (a c : List Nat) (addr len : Nat) (places : List (Loc × Nat)) : TileOp :=
  { id := e.seq, instr := e.instr, mask := m, tile := tile, aRegs := a.map fun n => (x.reg n).words,
    cRegs := c.map fun n => (x.reg n).words, addr := addr, len := len, places := places }

/-- A run of registers. -/
def regRun (r : Reg) (n : Nat) : List Nat := (List.range n).map fun k => if r.field = 1023 then 1023 else r.field + k

/-- A tile operation queued; the instruction retires. -/
def pushTile (s : State) (w : WarpId) (o : TileOp) : State := s.modWarp w fun x => { x with tileOps := x.tileOps ++ [o] }

/-- The scratch range of a matrix instruction checked (R321, R324, R393). -/
def hullCheck (s : State) (w : WarpId) (m : Mask) (a n : Nat) : Option Trap :=
  let size := s.spaceSize w.team .sc
  if a % 16 ≠ 0 then some (Trap.at 0x13 m a) else if a + n > size then some (Trap.at 0x14 m size) else none

/-- A product at issue. -/
def productBody (t : Nat) (a b : Reg) (c : Option Reg) (md : MmaMod) : Body := withWarp fun x w e m s =>
  let slot := s.slots w
  let sparse := c.isSome
  let bb := (once x b m).toNat
  let n := productHull (slot md.sa) (slot md.sb) sparse
  match hullCheck s w m bb n with
  | some tr => .trap s tr false
  | none =>
    let cs := match c with
      | some r => regRun r (mmaMeta (slot md.sa))
      | none => []
    .done (pushTile s w (tileOp x e m t (regRun a (mmaRun (slot md.sa) sparse)) cs bb n []))

/-- `MMA` (R316 to R322). -/
def bodyMma (t : Nat) (a : Reg) (b : Reg) (m : MmaMod) : Body :=
  productBody t a b none m
/-- `MMA` dispatched by the warp that acts. -/
def execMma (g : Guard) (t : Nat) (a b : Reg) (m : MmaMod) (s : State) : Host.Outcome State Fault Refusal :=
  issue .normal (.mma g t a b m) (bodyMma t a b m) s

/-- `MMAS` (R316 to R322: a sparse A). -/
def bodyMmas (t : Nat) (a : Reg) (b : Reg) (c : Reg) (m : MmaMod) : Body :=
  productBody t a b (some c) m
/-- `MMAS` dispatched by the warp that acts. -/
def execMmas (g : Guard) (t : Nat) (a b c : Reg) (m : MmaMod) (s : State) : Host.Outcome State Fault Refusal :=
  issue .normal (.mmas g t a b c m) (bodyMmas t a b c m) s

/-- `MMAC` (R316 to R322: A in LQ2). -/
def bodyMmac (t : Nat) (a : Reg) (b : Reg) (m : MmaMod) : Body :=
  productBody t a b none m
/-- `MMAC` dispatched by the warp that acts. -/
def execMmac (g : Guard) (t : Nat) (a b : Reg) (m : MmaMod) (s : State) : Host.Outcome State Fault Refusal :=
  issue .normal (.mmac g t a b m) (bodyMmac t a b m) s

/-- `MZERO` (R324). -/
def bodyMzero (t : Nat) : Body :=
  withWarp fun x w e m s => .done (pushTile s w (tileOp x e m t [] [] 0 0 []))
/-- `MZERO` dispatched by the warp that acts. -/
def execMzero (g : Guard) (t : Nat) (s : State) : Host.Outcome State Fault Refusal :=
  issue .normal (.mzero g t) (bodyMzero t) s

/-- `MRD` (R324, R326: its destinations are pending from retirement). -/
def bodyMrd (d : Reg) (t : Nat) : Body :=
  withWarp fun x w e m s =>
  let ds := regRun d 16
  let s := pushTile s w (tileOp x e m t [] ds 0 0 [])
  .done (s.modWarp w fun x => { x with pend := ds.foldl (fun p n => if n = 1023 then p else amSet p n e.seq) x.pend })
/-- `MRD` dispatched by the warp that acts. -/
def execMrd (g : Guard) (d : Reg) (t q : Nat) (s : State) : Host.Outcome State Fault Refusal :=
  issue .normal (.mrd g d t q) (bodyMrd d t) s

/-- `MWR` (R324). -/
def bodyMwr (t : Nat) (a : Reg) : Body :=
  withWarp fun x w e m s => .done (pushTile s w (tileOp x e m t (regRun a 16) [] 0 0 []))
/-- `MWR` dispatched by the warp that acts. -/
def execMwr (g : Guard) (t : Nat) (a : Reg) (q : Nat) (s : State) : Host.Outcome State Fault Refusal :=
  issue .normal (.mwr g t a q) (bodyMwr t a) s

/-- `MLD` (R324). -/
def bodyMld (t : Nat) (a : Reg) : Body :=
  withWarp fun x w e m s =>
  let v := (once x a m).toNat
  match hullCheck s w m v 8192 with
  | some tr => .trap s tr false
  | none => .done (pushTile s w (tileOp x e m t [] [] v 8192 []))
/-- `MLD` dispatched by the warp that acts. -/
def execMld (g : Guard) (t : Nat) (a : Reg) (s : State) : Host.Outcome State Fault Refusal :=
  issue .normal (.mld g t a) (bodyMld t a) s

/-- `MST` (R324, R325: to `.gl` every page of the hull is translated first; in `.sc` it takes a scoreboard entry). -/
def bodyMst (t : Nat) (gl : Bool) (cvt : Bool) (slot : Nat) (a : Reg) : Body :=
  withWarp fun x w e m s =>
  let l := (lowest m).getD 0
  let n := 32 * tileRowLen (s.slots w) cvt slot
  if gl then
    let v := (x.rd64n a.field l).toNat
    if v % 16 ≠ 0 then .trap s (Trap.at 0x13 m v) false
    else
      match s.engGl w v n true none false with
      | (.ok ps, s) => .done (pushTile s w (tileOp x e m t [] [] v n ps))
      | (r, s) => engEff s w m true r
  else
    let v := (x.rd a l).toNat
    match hullCheck s w m v n with
    | some tr => .trap s tr false
    | none =>
      if (s.core x.core).scoreboard.length ≥ 64 then .wait s
      else
        let entry : Sbd := { team := w.team, sp := .sc, lo := v, hi := v + n, warp := w.widx, id := e.seq }
        .done (pushTile (s.modCore x.core fun c => { c with scoreboard := c.scoreboard ++ [entry] }) w (tileOp x e m t [] [] v n []))
/-- `MST` dispatched by the warp that acts. -/
def execMst (g : Guard) (t : Nat) (gl cvt : Bool) (slot : Nat) (a : Reg) (s : State) : Host.Outcome State Fault Refusal :=
  issue .normal (.mst g t gl cvt slot a) (bodyMst t gl cvt slot a) s

/-- `MREL` (R323: the latch it releases never changes a result (log 44)). -/
def bodyMrel : Body :=
  fun _ _ _ s => .done s
/-- `MREL` dispatched by the warp that acts. -/
def execMrel (g : Guard) (s : State) : Host.Outcome State Fault Refusal :=
  issue .normal (.mrel g) bodyMrel s

namespace State

/-! ### Execution (row TILE_OP_EXECUTE; R322, R324, R327, R328) -/

/-- The scratch bytes that an operation reads, as a load of its warp under R74: none while it must wait. -/
def tileBytes (s : State) (w : WarpId) (x : Warp) (o : TileOp) : Option (List Byte) × State :=
  let a : Acc := { lane := 0, ea := o.addr, loc := .sc o.addr, len := o.len }
  if o.len = 0 then (some [], s)
  else if x.loads.any fun k => k.id < o.id && !loadBound k && (k.acq.isSome || k.accs.any fun b => s.overlap w.team a b) then (none, s)
  else if s.sbCovers w o.id o.addr o.len then (none, s)
  else
    match (pagesOf o.addr o.len).filter fun p => !s.pageReady w.team p x.core with
    | [] =>
      match s.forward x w.team o.id a false with
      | none => (none, s)
      | some fwd =>
        let (bs, s) := s.scrRead w.team o.addr o.len
        (some (overlay bs fwd), (pagesOf o.addr o.len).foldl (fun s p => s.touchPage w.team p) s)
    | l => (none, l.foldl (fun s p => s.queueMiss w.team p x.core w.widx o.id) s)

/-- The tile of a product after it (R322). -/
def product (slot : Nat → Slot) (x : Warp) (o : TileOp) (md : MmaMod) (sparse : Bool) (bs : List Byte) : Warp :=
  let sa := slot md.sa
  let sb := slot md.sb
  let k := depthOf sa sparse
  let rb := rowBytes sb
  let rows := (List.range k).map fun r => leNat ((bs.drop (r * rb)).take rb)
  let bsc := leNat (bs.drop (k * rb))
  setTile x o.tile o.mask 0 64 fun i j =>
    mmaAccumulate sa sb sparse (laneString o.aRegs i) (laneString o.cRegs i) rows bsc j (if md.zero then 0 else tileAt x o.tile i j)

/-- The operation finished: `tl` falls. -/
def tileDone (s : State) (w : WarpId) (id : Nat) : State :=
  s.modWarp w fun x => { x with tileOps := x.tileOps.filter fun (t : TileOp) => t.id != id, ctr := x.ctr.add .tl false }

/-- An operation that reads scratch carried out with the bytes it read. -/
def withTileBytes (s : State) (w : WarpId) (x : Warp) (o : TileOp) (f : Warp → List Byte → Warp) : State :=
  match s.tileBytes w x o with
  | (some bs, s) => (s.modWarp w fun x => f x bs).tileDone w o.id
  | (none, s) => s

/-- Where the rows of an `MST` to `.gl` land: at the places that its pages have now, so that a publication or a drop since its
issue counts (R172, R173, R175); a page that no longer translates counts as it did at issue (R119). -/
def storePlaces (s : State) (w : WarpId) (o : TileOp) : List (Loc × Nat) × State :=
  match s.engGl w o.addr o.len true none false with
  | (.ok ps, s) => (ps, s)
  | (_, s) => (o.places, s)

/-- `MST` carried out, once every older load of the warp has bound and every older store of it to those bytes has performed
(R75, R160, R328): the rows of the active lanes written in `.sc`, which frees its scoreboard entry, or as engine writes in
`.gl`. -/
def tileStore (s : State) (w : WarpId) (x : Warp) (o : TileOp) (gl cvt : Bool) (n : Nat) : State :=
  let rl := tileRowLen (s.slots w) cvt n
  let row := tileRow (s.slots w) x o.tile cvt n
  let (ps, s) := if gl then s.storePlaces w o else ([(.sc o.addr, o.len)], s)
  let held := fun (p : Loc × Nat) => x.stores.any fun k => k.id < o.id && k.accs.any fun q => k.todo.getLsbD q.acc.lane &&
    s.overlap w.team q.acc { lane := 0, ea := 0, loc := p.1, len := p.2 }
  if (x.loads.any fun k => k.id < o.id && !loadBound k) || queryOpen x o.id || tileReads x o.id || ps.any held then s
  else if gl then
    if ps.any fun p => match p.1 with | .mem pa key _ => s.homeHeld pa key | _ => false then s
    else
      ((ps.foldl (fun (acc : Nat × State) p =>
        (acc.1 + p.2, (List.range p.2).foldl (fun (s : State) k =>
          let i := (acc.1 + k) / rl
          if (acc.1 + k) % 4 = 0 && o.mask.getLsbD i then
            s.engPut w (locAdd p.1 k) (((row i).drop ((acc.1 + k) % rl)).take 4)
          else s) acc.2)) (0, s)).2).tileDone w o.id
  else
    match (pagesOf o.addr o.len).filter fun p => !s.pageReady w.team p x.core with
    | [] =>
      (((laneList o.mask).foldl (fun s i => s.scrPatch w.team ((row i).mapIdx fun k b => (o.addr + i * rl + k, b))) s).dropSbd
        w o.id).tileDone w o.id
    | l => l.foldl (fun s p => s.queueMiss w.team p x.core w.widx o.id) s

/-- The oldest operation on a tile of a warp carried out, if it may be (R327). -/
def tileExecute (s : State) (w : WarpId) (tile : Nat) : State :=
  match s.warp? w with
  | none => s
  | some x =>
    match x.tileOps.find? fun o => o.tile == tile with
    | none => s
    | some o =>
      let slot := s.slots w
      match o.instr with
      | .mma _ _ _ _ md => s.withTileBytes w x o fun x bs => product slot x o md false bs
      | .mmac _ _ _ _ md => s.withTileBytes w x o fun x bs => product slot x o md false bs
      | .mmas _ _ _ _ _ md => s.withTileBytes w x o fun x bs => product slot x o md true bs
      | .mld _ _ _ => s.withTileBytes w x o fun x bs =>
          setTile x tile o.mask 0 64 fun i j => BitVec.ofNat 32 (bytesNat bs (256 * i + 4 * j) 4)
      | .mzero _ _ => (s.modWarp w fun x => setTile x tile o.mask 0 64 fun _ _ => 0).tileDone w o.id
      | .mwr _ _ _ q => (s.modWarp w fun x => setTile x tile o.mask (16 * q) 16 fun i j =>
          (o.aRegs.getD (j - 16 * q) []).getD i 0).tileDone w o.id
      | .mrd _ d _ q =>
        ((s.modWarp w fun x => commitRegs x o.id ((regRun d 16).mapIdx fun k n =>
          (n, { tag := .general, words := lanes.map fun i =>
            if o.mask.getLsbD i then tileAt x tile i (16 * q + k) else (x.reg n).at i }))).tileDone w o.id).freeBank w
      | .mst _ _ gl cvt n _ => s.tileStore w x o gl cvt n
      | _ => s

end State

end Sys2Proof.Machine
end

