-- ==== Sys2Proof/Machine/Memory.lean ====
section
/-! DEFINITION. Group 4, memory (R292 to R302). -/

namespace Sys2Proof.Machine

/-- The effective address of a lane (R104): a register in a 32-bit space, a pair in `.gl`, plus a signed offset. -/
def laneEa (x : Warp) (sp : Space) (a : Reg) (off : BitVec 20) (i : Nat) : Nat :=
  if sp = .gl then (x.rd64n a.field i + off.signExtend 64).toNat else (x.rd a i + off.signExtend 32).toNat

/-- The registers of a run of `n` from a field; `vz` stands for each of them. -/
def runOf (d n : Nat) : List Nat := (List.range n).map fun k => if d = 1023 then 1023 else d + k

/-- A sketch operation with more completed lanes (R145, R332): it keeps LAWF as it stands at issue (R356), and the lines that an
insert or deletion will write enter the warp's signatures (R151, R166). -/
def State.growSk (s : State) (w : WarpId) (e : WEntry) (dsts stDst : List Nat) (l : List SkLane) : State :=
  let lawf := (s.ctx (s.ctxOf w.team)).lawf
  let s := (l.filter fun q => updates q.act).foldl (fun s q => (skPlaces q).foldl (fun s p => s.noteWrite w p.1 p.2) s) s
  if l.isEmpty then s
  else s.modWarp w fun x =>
    match x.skOps.find? (fun o => o.id == e.seq) with
    | some _ => { x with skOps := x.skOps.map fun (o : SkOp) => if o.id = e.seq then { o with lanes := o.lanes ++ l } else o }
    | none =>
      let o : SkOp := { id := e.seq, pc := e.pc, word := e.word, mask := e.mask, instr := e.instr, lanes := l, dsts := dsts, vals := State.loadVals x dsts, stDst := stDst,
                        stVal := State.loadVals x stDst, retired := false, units := 0, total := 0, busy := false, paused := [], lawf := lawf }
      { x with skOps := x.skOps ++ [o] }

/-- The sketch lanes among results. -/
def skLanes (l : List (Nat × LaneRes)) : List SkLane := l.filterMap fun r => match r.2 with | .sk x => some x | _ => none
/-- The accesses among results. -/
def resAccs (l : List (Nat × LaneRes)) : List Acc := l.flatMap fun r => match r.2 with | .acc a => a | _ => []

/-- A load of n bytes (R293, R296): the lanes that pass their checks join its operation, which binds later (R73). -/
def loadBody (sp : Space) (n d : Nat) (ea : Warp → Nat → Nat) (acq : Option Scope) (win : Bool) : Body := withWarp fun x w e m s =>
  let had := ((x.loads.find? fun l => l.id == e.seq).map LoadOp.need).getD 0
  let todo := m &&& ~~~had
  let (rs, s) := s.laneChecks todo fun i s => s.laneCheck w sp false n i (ea x i) (if win then some 0 else none)
  let on := doneLanes rs
  let s := if on = 0 then s else s.growLoad w e.seq (runOf d ((n + 3) / 4)) acq (resAccs rs) on
  laneOutcome (s.growSk w e [] [] (skLanes rs)) w e.seq todo ((on ||| had) != 0) false rs

/-- The parts of a lane's store: its accesses with the bytes each writes. -/
def stParts (accs : List Acc) (v : List Byte) (opnd cmp : Nat) : List StAcc :=
  (accs.foldl (fun (a : List StAcc × Nat) q =>
    (a.1 ++ [{ acc := q, bytes := ((v.drop a.2).take q.len).mapIdx (fun k b => (k, b)), opnd := opnd, cmp := cmp }], a.2 + q.len))
    ([], 0)).1

/-- A store, `RED` or atomic of n bytes (R294, R296, R298): the lanes that pass their checks join its operation, which
performs after retirement (R75); their lines enter the warp's signatures (R166). `val` gives a lane's bytes, operand and
compare value; `dst` the destinations of a value that returns. -/
def storeBody (kind : StKind) (rel acq : Option Scope) (sp : Space) (n : Nat) (ea : Warp → Nat → Nat)
    (val : Warp → Nat → List Byte × Nat × Nat) (dst : List Nat) (win : Bool) : Body := withWarp fun x w e m s =>
  let had := ((x.stores.find? fun o => o.id == e.seq).map fun o => maskOf fun i => o.accs.any fun q => q.acc.lane == i).getD 0
  let hadSk := ((x.skOps.find? fun o => o.id == e.seq).map fun o => maskOf fun i => o.lanes.any fun q => q.lane == i).getD 0
  let todo := m &&& ~~~(had ||| hadSk)
  let (rs, s) := s.laneChecks todo fun i s =>
    s.laneCheck w sp true n i (ea x i) (if win then some (leNat (val x i).1) else none)
  let on := maskOf fun i => rs.any fun r => r.1 == i && match r.2 with | .acc _ => true | _ => false
  let parts := rs.flatMap fun r => match r.2 with
    | .acc l => let v := val x r.1; stParts l v.1 v.2.1 v.2.2
    | _ => []
  let s := parts.foldl (fun s q => s.noteWrite w q.acc.loc q.acc.len) s
  let s := if (doneLanes rs) = 0 then s else s.growStore w
    { id := e.seq, kind := kind, rel := rel, acq := acq, accs := parts, todo := on, acks := 0, released := false, sig := 0, lost := [] }
  let s := if dst.isEmpty || on = 0 then s else s.growLoad w e.seq dst acq (parts.map StAcc.acc) on
  laneOutcome (s.growSk w e [] [] (skLanes rs)) w e.seq todo ((doneLanes rs ||| had ||| hadSk) != 0) true rs

/-- The bytes of a run of data registers in a lane. -/
def dataBytes (x : Warp) (d : Reg) (n i : Nat) : List Byte :=
  ((runOf d.field ((n + 3) / 4)).flatMap fun r => leBytes 4 ((x.reg r).at i).toNat).take n

/-- `LD` (R293, R386). -/
def bodyLd (sp : Space) (w : Width) (d : Reg) (a : Reg) (off : BitVec 20) : Body :=
  loadBody sp (widthBytes w) d.field (fun x i => laneEa x sp a off i) none true
/-- `LD` dispatched by the warp that acts. -/
def execLd (g : Guard) (sp : Space) (w : Width) (d a : Reg) (off : BitVec 20) (s : State) : Host.Outcome State Fault Refusal :=
  issue .normal (.ld g sp w d a off) (bodyLd sp w d a off) s

/-- `ST` (R294). -/
def bodySt (sp : Space) (w : Width) (ofl : Bool) (d : Reg) (a : Reg) (off : BitVec 20) : Body :=
  storeBody (if ofl then .ordered else .plain) none none sp (widthBytes w) (fun x i => laneEa x sp a off i)
    (fun x i => (dataBytes x d (widthBytes w) i, 0, 0)) [] true
/-- `ST` dispatched by the warp that acts. -/
def execSt (g : Guard) (sp : Space) (w : Width) (ofl : Bool) (d a : Reg) (off : BitVec 20) (s : State) : Host.Outcome State Fault Refusal :=
  issue .normal (.st g sp w ofl d a off) (bodySt sp w ofl d a off) s

/-- One lane of `LDK`: its one or two words, or why it has none. -/
def ldkLane (w : WarpId) (win j : Nat) (b64 : Bool) (s : State) : (List Word ⊕ Opnd) × State :=
  match s.windowWord w win j with
  | (.inr o, s) => (.inr o, s)
  | (.inl lo, s) =>
    if b64 then
      match s.windowWord w win ((j + 1) % 2 ^ 17) with
      | (.inr o, s) => (.inr o, s)
      | (.inl hi, s) => (.inl [lo, hi], s)
    else (.inl [lo], s)

/-- `LDK` (R114, R295: the completed lanes are committed, and the count falls as they bind). -/
def bodyLdk (d : Reg) (a : Reg) (win : Nat) (b64 : Bool) : Body :=
  withWarp fun x w e m s =>
  let step := fun (acc : List (Nat × (List Word ⊕ Opnd)) × State) (i : Nat) =>
    let (r, s) := ldkLane w win ((x.rd a i).toNat % 2 ^ 17) b64 acc.2
    (acc.1 ++ [(i, r)], s)
  let (rs, s) := (laneList m).foldl step ([], s)
  let got := rs.filterMap fun r => match r.2 with | .inl l => some (r.1, l) | _ => none
  let on := maskOf fun i => got.any fun g => g.1 == i
  let tag := tagAll [x.reg a.field]
  let at' := fun k i => (((got.find? fun g => g.1 == i).map (·.2)).getD []).getD k 0
  let put := fun (s : State) => s.modWarp w fun x =>
    let x := x.writeReg d.field on tag (at' 0)
    if b64 then x.writeReg (Warp.upper d.field) on tag (at' 1) else x
  let rest := m &&& ~~~on
  let refused := fun va => x.refused.contains (State.pageOf va)
  let fails := rs.filterMap fun r => match r.2 with
    | .inr (.fail code va) => some (r.1, code, va)
    | .inr (.absent va) => if refused va then some (r.1, 0x10, va) else none
    | _ => none
  let absents := rs.filterMap fun r => match r.2 with | .inr (.absent va) => some va | _ => none
  match fails with
  | (lane, code, va) :: _ => .trap (put s) { Trap.at code rest va with lane := lane } false
  | [] =>
    if !absents.isEmpty then
      .park (put s) rest (absents.foldl (fun (p : List (Nat × Nat × Bool)) va =>
        if p.any fun q => q.1 == State.pageOf va then p else p ++ [(State.pageOf va, va, false)]) []) false
    else if rest = 0 then .done ((put s).uncount w e.instr)
    else .wait s
/-- `LDK` dispatched by the warp that acts. -/
def execLdk (g : Guard) (d a : Reg) (win : Nat) (b64 : Bool) (s : State) : Host.Outcome State Fault Refusal :=
  issue .normal (.ldk g d a win b64) (bodyLdk d a win b64) s

/-- `LDACQ` (R163, R296). -/
def bodyLdacq (sp : Space) (w : Width) (sc : Scope) (d : Reg) (a : Reg) (off : BitVec 20) : Body :=
  loadBody sp (widthBytes w) d.field (fun x i => laneEa x sp a off i) (some sc) false
/-- `LDACQ` dispatched by the warp that acts. -/
def execLdacq (g : Guard) (sp : Space) (w : Width) (sc : Scope) (d a : Reg) (off : BitVec 20) (s : State) : Host.Outcome State Fault Refusal :=
  issue .normal (.ldacq g sp w sc d a off) (bodyLdacq sp w sc d a off) s

/-- `STREL` (R162, R296). -/
def bodyStrel (sp : Space) (w : Width) (sc : Scope) (d : Reg) (a : Reg) (off : BitVec 20) : Body :=
  storeBody .release (some sc) none sp (widthBytes w) (fun x i => laneEa x sp a off i)
    (fun x i => (dataBytes x d (widthBytes w) i, 0, 0)) [] false
/-- `STREL` dispatched by the warp that acts. -/
def execStrel (g : Guard) (sp : Space) (w : Width) (sc : Scope) (d a : Reg) (off : BitVec 20) (s : State) : Host.Outcome State Fault Refusal :=
  issue .normal (.strel g sp w sc d a off) (bodyStrel sp w sc d a off) s

/-- The release and acquire scopes of an atomic's order (Table 14-2). -/
def relOf (m : AtomMod) : Option Scope := if m.ord = .rel || m.ord = .ar then some m.scope else none
def acqOf (m : AtomMod) : Option Scope := if m.ord = .acq || m.ord = .ar then some m.scope else none
/-- Bytes of an atomic, the address of a lane, and an operand register or pair. -/
def atomBytes (m : AtomMod) : Nat := if m.b64 then 8 else 4
def atomEa (m : AtomMod) (a : Reg) (x : Warp) (i : Nat) : Nat :=
  if m.space = .gl then (x.rd64n a.field i).toNat else (x.rd a i).toNat
def atomOpnd (m : AtomMod) (b : Reg) (x : Warp) (i : Nat) : Nat :=
  if m.b64 then (x.rd64n b.field i).toNat else (x.rd b i).toNat

/-- A floating-point add atomic under deterministic mode raises the determinism fault before any lane (R222, R297). -/
def detGuard (op : AtomOp) (b : Body) : Body := fun w e m s =>
  if op = .fadd && ((s.gridOf? w.team).map fun g => g.2.det).getD false then .trap s (Trap.warp 0x50 m) false else b w e m s

/-- `ATOM` (R297, R298). -/
def bodyAtom (op : AtomOp) (m : AtomMod) (d : Reg) (a : Reg) (b : Reg) : Body :=
  detGuard op (storeBody (.atom op) (relOf m) (acqOf m) m.space (atomBytes m) (atomEa m a)
    (fun x i => ([], atomOpnd m b x i, 0)) (runOf d.field (atomBytes m / 4)) false)
/-- `ATOM` dispatched by the warp that acts. -/
def execAtom (g : Guard) (op : AtomOp) (m : AtomMod) (d a b : Reg) (s : State) : Host.Outcome State Fault Refusal :=
  issue .normal (.atom g op m d a b) (bodyAtom op m d a b) s

/-- `ATOMC` (R297, R298). -/
def bodyAtomc (m : AtomMod) (d : Reg) (a : Reg) (b : Reg) (c : Reg) : Body :=
  storeBody .atomc (relOf m) (acqOf m) m.space (atomBytes m) (atomEa m a)
    (fun x i => ([], atomOpnd m b x i, atomOpnd m c x i)) (runOf d.field (atomBytes m / 4)) false
/-- `ATOMC` dispatched by the warp that acts. -/
def execAtomc (g : Guard) (m : AtomMod) (d a b c : Reg) (s : State) : Host.Outcome State Fault Refusal :=
  issue .normal (.atomc g m d a b c) (bodyAtomc m d a b c) s

/-- `RED` (R297, R298). -/
def bodyRed (op : AtomOp) (m : AtomMod) (a : Reg) (b : Reg) : Body :=
  detGuard op (storeBody (.red op) (relOf m) none m.space (atomBytes m) (atomEa m a)
    (fun x i => ([], atomOpnd m b x i, 0)) [] false)
/-- `RED` dispatched by the warp that acts. -/
def execRed (g : Guard) (op : AtomOp) (m : AtomMod) (a b : Reg) (s : State) : Host.Outcome State Fault Refusal :=
  issue .normal (.red g op m a b) (bodyRed op m a b) s

/-- `FENCE` (R165, R299). -/
def bodyFence (sc : Scope) : Body :=
  withWarp fun x w e _ s => if s.olderDone w x e.seq sc then .done (s.fence w sc) else .wait s
/-- `FENCE` dispatched by the warp that acts. -/
def execFence (g : Guard) (sc : Scope) (s : State) : Host.Outcome State Fault Refusal :=
  issue .normal (.fence g sc) (bodyFence sc) s

/-- Whether an engine operation sends remote writes, which `FENCEA` waits for (R183). -/
def remoteKind : CopyKind → Bool
  | .copy => false
  | .get => false
  | .coll _ => false
  | .put => true
  | .mcast _ _ _ => true
  | .send _ _ _ => true

/-- `FENCEA` (R183, R299: waits for the remote writes issued before it on the named path groups). -/
def bodyFencea (mask : BitVec 4) : Body :=
  withWarp fun x w e _ s =>
  let unsent := (x.stores.any fun o => o.id < e.seq && o.accs.any fun q => o.todo.getLsbD q.acc.lane &&
      match q.acc.loc with | .remote _ _ _ => true | _ => false) ||
    x.copies.any fun c => c.id < e.seq && c.stage == .issued && remoteKind c.kind
  let unacked := s.fab.reqs.any fun r => State.countedWrite r.kind && mask.getLsbD (r.link / 4) &&
    match r.owner with
    | .store v k => v == w && k < e.seq
    | .copy v k => v == w && k < e.seq
    | _ => false
  if mask = 0 || (!unsent && !unacked) then .done s else .wait s
/-- `FENCEA` dispatched by the warp that acts. -/
def execFencea (g : Guard) (mask : BitVec 4) (s : State) : Host.Outcome State Fault Refusal :=
  issue .normal (.fencea g mask) (bodyFencea mask) s

/-! ### Cache management (R300 to R302) -/

namespace State

/-- The local physical pieces of a virtual range: physical start, bytes, key; pages with no valid leaf, of another
package or of a window are skipped (R300). -/
def localPieces (s : State) (w : WarpId) (a n : Nat) : List (Nat × Nat × Nat) × State :=
  let c := s.coreOf w
  ((List.range ((a + n - 1) / 2 ^ 19 - a / 2 ^ 19 + 1)).foldl (fun (acc : List (Nat × Nat × Nat) × State) k =>
    let lo := max a ((a / 2 ^ 19 + k) * 2 ^ 19)
    let hi := min (a + n) ((a / 2 ^ 19 + k + 1) * 2 ^ 19)
    match acc.2.translate c (acc.2.ctxOf w.team) lo with
    | (.leaf e, s) =>
      if bigMalformed e || s.foreignStack (s.partOf w.team) e then (acc.1, s)
      else
        match locOf e lo with
        | .mem pa key _ => (acc.1 ++ [(pa, hi - lo, key)], s)
        | _ => (acc.1, s)
    | (_, s) => (acc.1, s)) ([], s))

/-- Whether a line overlaps a piece. -/
def inPiece (p : Nat × Nat × Nat) (line key : Nat) : Bool := key == p.2.2 && line * 128 < p.1 + p.2.1 && p.1 < line * 128 + 128

/-- The lines of pieces written back from an L1, and dropped from it; then the same at their home slices (R300). -/
def cacheOp (s : State) (c : Nat) (l2 drop : Bool) (ps : List (Nat × Nat × Nat)) : State :=
  let mine := (s.core c).l1.filter fun e => e.line / 2 ^ 33 == s.fab.fid && ps.any fun p => inPiece p (e.line % 2 ^ 33) e.key
  let s := mine.foldl (fun s e =>
    let s := if e.dirty.isEmpty then s else s.l1Writeback c e fun _ => true
    if drop then s.l1Drop c e.line e.key else s) s
  if !l2 then s
  else
    let home := s.mem.l2.filter fun e => e.slice == s.mem.l2Home (e.line * 128) && ps.any fun p => inPiece p e.line e.key
    home.foldl (fun s e =>
      let m := if e.dirty.isEmpty then s.mem else s.mem.l2Clean e
      s.setMem (if drop then m.l2Drop e.slice e.line e.key else m)) s

end State

/-- `CWB` and `CINV` over a range (R292, R300): a range past 2^57 is an illegal operand; older stores of the warp perform
first. -/
def cacheBody (l2 drop : Bool) (a : Pair) (b : Reg) : Body := withWarp fun x w e m s =>
  let l := (lowest m).getD 0
  let va := (x.rd64 a l).toNat
  let n := (x.rd b l).toNat
  if n = 0 then .done s
  else if va + n > 2 ^ 57 then .trap s (Trap.warp 0x03 m) false
  else if (x.stores.any fun o => o.id < e.seq && o.todo != 0) || s.flushHeld x.core then .wait s
  else
    let (ps, s) := s.localPieces w va n
    .done (s.cacheOp x.core l2 drop ps)

/-- `CWB` (R300). -/
def bodyCwb (l2 : Bool) (a : Pair) (b : Reg) : Body :=
  cacheBody l2 false a b
/-- `CWB` dispatched by the warp that acts. -/
def execCwb (g : Guard) (l2 : Bool) (a : Pair) (b : Reg) (s : State) : Host.Outcome State Fault Refusal :=
  issue .normal (.cwb g l2 a b) (bodyCwb l2 a b) s

/-- `CINV` (R300). -/
def bodyCinv (l2 : Bool) (a : Pair) (b : Reg) : Body :=
  cacheBody l2 true a b
/-- `CINV` dispatched by the warp that acts. -/
def execCinv (g : Guard) (l2 : Bool) (a : Pair) (b : Reg) (s : State) : Host.Outcome State Fault Refusal :=
  issue .normal (.cinv g l2 a b) (bodyCinv l2 a b) s

/-- A line of another package asked for, to be placed in a core's L1, or only to be filled at its home (R301). -/
def State.prefetch (s : State) (c fid addr key : Nat) (l2 : Bool) : State :=
  let line := addr / 128 * 128
  let owner := if l2 then ReqOwner.nobody else .prefetch c
  (s.sendReq { s.packetTo .readReq fid with score := c, addr := line, key := key, len := 128 }
    { bareReq owner with core := c, va := line, slot := key } none).getD s

/-- `CPF` (R301: a lane that fails its checks does nothing). -/
def bodyCpf (l2 : Bool) (a : Pair) (off : BitVec 20) : Body :=
  withWarp fun x w _ m s =>
  .done ((laneList m).foldl (fun s i =>
    let va := (x.rd64 a i + off.signExtend 64).toNat
    match s.xlate x.core (s.ctxOf w.team) va .load with
    | (.ok e, s) =>
      match State.locOf e va with
      | .mem pa key cls =>
        let fill : Fill := { slice := s.mem.l2Home pa, line := pa / 128, key := key, cls := cls }
        let s := s.setMem { s.mem with fills := s.mem.fills ++ [fill] }
        if l2 || s.keyWaits key then s else (s.l1Read x.core (pa / 128 * 128) key cls 128).2
      | .remote fid addr key => s.prefetch x.core fid addr key l2
      | _ => s
    | (_, s) => s) s)
/-- `CPF` dispatched by the warp that acts. -/
def execCpf (g : Guard) (l2 : Bool) (a : Pair) (off : BitVec 20) (s : State) : Host.Outcome State Fault Refusal :=
  issue .normal (.cpf g l2 a off) (bodyCpf l2 a off) s

/-- Whether a Weigher update is pending at a slice (R302). -/
def State.sliceBusy (s : State) (slice : Nat) : Bool :=
  s.warps.any fun x => x.2.skOps.any fun o => o.retired && o.lanes.any fun l => l.done < l.steps &&
    (l.act == .ins || l.act == .del) && l.cols.any fun c =>
      match c with
      | .mem pa _ _ => s.mem.l2Home pa == slice
      | _ => false

/-- `SLCDR` (R302). -/
def bodySlcdr (b : Reg) : Body :=
  withWarp fun x w _ m s =>
  let slice := (once x b m).toNat % 128
  if field (s.part (s.partOf w.team)).hubMask (slice / 8) 1 = 0 then .trap s (Trap.warp 0x03 m) false
  else if s.sliceBusy slice then .wait s
  else
    let mine := s.mem.l2.filter fun e => e.slice == slice
    .done (s.setMem (mine.foldl (fun m e => (m.l2Write e).l2Drop e.slice e.line e.key) s.mem))
/-- `SLCDR` dispatched by the warp that acts. -/
def execSlcdr (g : Guard) (b : Reg) (s : State) : Host.Outcome State Fault Refusal :=
  issue .normal (.slcdr g b) (bodySlcdr b) s

end Sys2Proof.Machine
end

