-- ==== Sys2Proof/Machine/Region.lean ====
section
/-! DEFINITION. Changes of whole sketch regions: merges (R146 to R148, R311), folds (R149), clears (R338) and their
publication; and the Weighers' single steps for operations of lanes (R75, R152, R334 to R336). -/

namespace Sys2Proof.Machine

/-! ### Counter arrays as bytes -/

/-- The numbers of w bytes each that a byte list holds. -/
def numsOf (w : Nat) (bs : List Byte) : List Nat := (List.range (bs.length / w)).map fun k => bytesNat bs (w * k) w
/-- Numbers as bytes, w each. -/
def bytesOf (w : Nat) (l : List Nat) : List Byte := l.flatMap (leBytes w)
/-- Bytes extended with zeros to a length. -/
def padTo (n : Nat) (bs : List Byte) : List Byte := bs ++ List.replicate (n - bs.length) 0

/-- Two lists of counters combined by `counter_update`, with the events. -/
def updAll (cmax : Nat) (l : List (Nat × Nat)) : List Nat × Ev :=
  l.foldl (fun (a : List Nat × Ev) p => let r := updEv p.1 p.2 cmax; (a.1 ++ [r.1], a.2.add r.2)) ([], Ev.none)

/-- The nibbles of a byte list, and a byte list of nibbles. -/
def nibblesOf (bs : List Byte) : List Nat := bs.flatMap fun b => [b.toNat % 16, b.toNat / 16]
def ofNibbles : List Nat → List Byte
  | a :: b :: l => BitVec.ofNat 8 (a + 16 * b) :: ofNibbles l
  | [a] => [BitVec.ofNat 8 a]
  | [] => []

/-- The 6-bit registers of 64-bit words (Table 7-4), and words of registers. -/
def regs6 (bs : List Byte) : List Nat := (numsOf 8 bs).flatMap fun w => (List.range 10).map fun k => field w (6 * k) 6
def ofRegs6 (l : List Nat) : List Byte :=
  bytesOf 8 ((List.range ((l.length + 9) / 10)).map fun k => packElems 6 ((l.drop (10 * k)).take 10))

/-- The merge of one 64-byte unit (Table 7-7). -/
def mergeBytes (l : List Byte) (dst src : List Byte) : List Byte × Ev :=
  match dType l with
  | 1 =>
    let r := updAll (cmaxOf l) ((numsOf (fskCb l) dst).zip (numsOf (fskCb l) src))
    (bytesOf (fskCb l) r.1, r.2)
  | 2 =>
    if dCntf l then let r := updAll 15 ((nibblesOf dst).zip (nibblesOf src)); (ofNibbles r.1, r.2)
    else ((dst.zip src).map fun p => p.1 ||| p.2, Ev.none)
  | 3 => (ofRegs6 (((regs6 dst).zip (regs6 src)).map fun p => max p.1 p.2), Ev.none)
  | _ =>
    let r := updAll (2 ^ 32 - 1) ((numsOf 4 dst).zip (numsOf 4 src))
    (bytesOf 4 r.1, r.2)

/-- Whether a region stands at the lower limit of its parameter (R149). -/
def foldLimit (l : List Byte) : Bool :=
  match dType l with
  | 1 => fskK l ≤ 2
  | 2 => mflJ l = 0
  | 3 => dcnP l ≤ 4
  | _ => qsmB l ≤ 2

/-- PARAMS after a fold. -/
def foldParams (l : List Byte) : Nat :=
  match dType l with
  | 1 => setField (dParams l) 4 5 (fskK l - 1)
  | 2 => setField (dParams l) 0 5 (mflJ l - 1)
  | 3 => setField (dParams l) 0 5 (dcnP l - 1)
  | _ => setField (dParams l) 0 3 (qsmB l - 1)

/-- Neighbours of a list paired. -/
def pairsOf : List Nat → List (Nat × Nat)
  | a :: b :: l => (a, b) :: pairsOf l
  | _ => []

/-- The counter array after a fold (R149); what it vacates reads zero. -/
def foldBytes (l : List Byte) (bs : List Byte) : List Byte × Ev :=
  match dType l with
  | 1 =>
    let r := updAll (cmaxOf l) (pairsOf ((numsOf (fskCb l) bs).take (fskD l * 2 ^ fskK l)))
    (padTo bs.length (bytesOf (fskCb l) r.1), r.2)
  | 2 =>
    let r := (List.range (2 ^ mflJ l / 2)).foldl (fun (a : List Byte × Ev) y =>
      let q := mergeBytes l ((bs.drop (128 * y)).take 64) ((bs.drop (128 * y + 64)).take 64)
      (a.1 ++ q.1, a.2.add q.2)) ([], Ev.none)
    (padTo bs.length r.1, r.2)
  | 3 =>
    let g0 := fun v => if v = 0 then 0 else v + 1
    let g1 := fun v => if v = 0 then 0 else 1
    (padTo bs.length (ofRegs6 ((pairsOf ((regs6 bs).take (2 ^ dcnP l))).map fun p => max (g0 p.1) (g1 p.2))), Ev.none)
  | _ =>
    let nb := qsmNb l
    let c := numsOf 4 bs
    let slot := fun s => c.getD (s + 1) 0
    let ng := updAll (2 ^ 32 - 1) ((List.range (nb / 2)).map fun g => (slot (nb - 2 * g), slot (nb - (2 * g + 1))))
    let ps := updAll (2 ^ 32 - 1) ((List.range (nb / 2)).map fun g => (slot (nb + 4 + 2 * g), slot (nb + 4 + (2 * g + 1))))
    (padTo bs.length (bytesOf 4 ([c.getD 0 0, slot 0] ++ ng.1.reverse ++ [slot (nb + 1), slot (nb + 2), slot (nb + 3)] ++ ps.1 ++
      [slot (2 * nb + 4)])), ng.2.add ps.2)

namespace State

/-! ### Operations of a warp -/

def skOpOf (x : Warp) (id : Nat) : Option SkOp := x.skOps.find? fun o => o.id == id

def modSk (s : State) (w : WarpId) (id : Nat) (f : SkOp → SkOp) : State :=
  s.modWarp w fun x => { x with skOps := x.skOps.map fun (o : SkOp) => if o.id = id then f o else o }

/-- Whether a place is the descriptor at a physical address. -/
def atPa (pa : Nat) : Loc → Bool
  | .mem p _ _ => p == pa
  | _ => false

/-- Whether two descriptor places are one region (R152). -/
def sameRegion (a b : Loc) : Bool :=
  match a with
  | .mem p _ _ => atPa p b
  | _ => false

/-- Whether an operation is a change of a region as a whole. -/
def wholeOp : Instr → Bool
  | .skmrg _ _ _ _ => true
  | .skfold _ _ _ => true
  | .skclr _ _ _ => true
  | _ => false

/-- A sketch operation taken away once it has performed in every lane and has retired: its registers become ready, and
its count falls (R332). -/
def finishSk (s : State) (w : WarpId) (id : Nat) : State :=
  match s.warp? w with
  | none => s
  | some x =>
    match skOpOf x id with
    | none => s
    | some o =>
      if !o.retired || !skDone o then s
      else
        let x := commitRegs x id (o.dsts.zip o.vals ++ o.stDst.zip o.stVal)
        let x := { x with skOps := x.skOps.filter fun (k : SkOp) => k.id != id }
        match o.instr with
        | .ld _ _ _ _ _ _ => s.setWarp w x
        | .st _ _ _ _ _ _ _ => (s.setWarp w x).finishStore w id
        | _ => (s.setWarp w { x with ctr := x.ctr.add .sk false }).freeBank w

/-! ### One step of one lane (row WEIGHER_UPDATE) -/

/-- Whether an operation reads the descriptor (`SKSTAT`). -/
def isStat : SkDo → Bool
  | .stat _ => true
  | _ => false

/-- Whether two lanes touch one counter, whatever region each names it through (R335). -/
def shareCounter (a b : SkLane) : Bool := a.cols.any fun c => b.cols.any fun d => sameRegion c d

/-- Whether a place is local and meets a condition on its address and key. -/
def memAny (l : Loc) (f : Nat → Nat → Bool) : Bool :=
  match l with
  | .mem pa key _ => f pa key
  | _ => false

/-- Whether an older store of the warp to a counter, or to the descriptor, of a lane has yet to perform (R74, R160), or
dirty bytes of the core there cannot reach the home yet (R364). -/
def skStale (s : State) (t : Nat) (x : Warp) (o : SkOp) (l : SkLane) : Bool :=
  (x.stores.any fun k => k.id < o.id && k.accs.any fun q => k.todo.getLsbD q.acc.lane &&
    (skPlaces l).any fun p => s.overlap t q.acc { lane := 0, ea := 0, loc := p.1, len := p.2 }) ||
  (l.dloc :: l.cols).any fun c => memAny c (s.syncHeld x.core)

/-- Whether a step of a lane must wait (R74, R75, R152, R163, R335, R364). -/
def skHeld (s : State) (t : Nat) (x : Warp) (o : SkOp) (l : SkLane) : Bool :=
  s.skStale t x o l ||
  if updates l.act then
    !o.retired || (x.window.any fun e => e.seq == o.id) || (x.loads.any fun k => k.id < o.id && !loadBound k) ||
    queryOpen x o.id || (o.lanes.any fun q => q.lane < l.lane && skOpen q && shareCounter q l) ||
    (x.skOps.any fun k => k.id < o.id && k.lanes.any fun q => skOpen q && updates q.act && shareCounter q l) ||
    (l.dloc :: l.cols).any fun c => memAny c s.homeHeld
  else
    (x.loads.any fun k => k.id < o.id && k.acq.isSome && !loadBound k) ||
    x.skOps.any fun k => k.id < o.id && k.lanes.any fun q => sameRegion q.dloc l.dloc &&
      (wholeOp k.instr || (skOpen q && (updates q.act || isStat l.act)))

/-- A core's own dirty bytes of a lane's counters and descriptor written back, so that the Weigher meets them (R74, R151). -/
def skSync (s : State) (c : Nat) (l : SkLane) : State :=
  (skPlaces l).foldl (fun s p => match p.1 with | .mem pa key _ => s.l1Sync c pa key p.2 | _ => s) s

/-- A core's copies of what an update of its own warp wrote dropped, so that the warp reads its own writes (R160). -/
def skDrop (s : State) (c : Nat) (l : SkLane) : State :=
  if updates l.act then
    (l.dloc :: l.cols).foldl (fun s p => match p with | .mem pa key _ => s.l1Drop c (lineName s.fab.fid pa) key | _ => s) s
  else s

/-- The status word of a lane that has performed (Table 18-3). -/
def skStatus (s : State) (l : SkLane) (sat : Bool) : Nat × State :=
  let (f, s) := s.descNat l.dloc 3 1
  (bit sat + 2 * bit l.und + 4 * bit (field f 2 1 == 0), s)

/-- What a lane that has performed leaves: its answer, its status, and for a window load its value, no larger than its width
holds (Table 7-6). -/
def skLaneDone (s : State) (w : WarpId) (o : SkOp) (l : SkLane) : State :=
  let (v, top) := if updates l.act then (0, l.sat) else skAnswer l l.act
  let (st, s) := s.skStatus l top
  let s := s.modSk w o.id fun k =>
    { k with vals := putLane k.vals l.lane (valueWords k.dsts.length (leBytes 8 v))
             stVal := putLane k.stVal l.lane [BitVec.ofNat 32 st] }
  match o.instr with
  | .ld _ _ wd _ _ _ =>
    let n := widthBytes wd
    (s.bindLane w o.id l.lane (leBytes n (min v (2 ^ (8 * n) - 1))) 0).finishLoad w o.id
  | _ => s

/-- One step of an operation in a lane. -/
def weigherUpdate (s : State) (w : WarpId) (id lane : Nat) : State :=
  match s.warp? w with
  | none => s
  | some x =>
    match skOpOf x id with
    | none => s
    | some o =>
      match o.lanes.find? fun l => l.lane == lane with
      | none => s
      | some l =>
        if wholeOp o.instr then s
        else if l.steps ≤ l.done then s.finishSk w id
        else if s.skHeld w.team x o l then s
        else
          let (l', s) := (s.skSync x.core l).skStep l l.act
          let s := (s.skDrop x.core l).modSk w id fun k =>
            { k with lanes := k.lanes.map fun q => if q.lane = lane then l' else q }
          let s := if o.lawf then
              s.modWarp w fun x => { x with lawDue := x.lawDue ++ l'.low.map fun a => (a, l.desc) }
            else s
          if l'.steps ≤ l'.done then (s.skLaneDone w o l').finishSk w id else s

/-! ### Counter pages of a region -/

/-- The leaves of a counter array. -/
def arrayLeaves (s : State) (w : WarpId) (l : List Byte) : List (Nat × Option Tlb) × State := s.warpLeaves w (dCbase l) (csize l)

/-- Whether a leaf may be changed as a whole (R132, R311, R338): a 512 KiB leaf of TYPE 00 with W = 1, not at TWIN 01. -/
def leafChanges (e : Tlb) : Bool := !e.big && pteType e.leaf == 0 && pteW e.leaf && pteTwin e.leaf != 1

/-- Whether a leaf may hold a counter array that operations change in place (R132, R172). -/
def leafCounts (e : Tlb) : Bool := pteType e.leaf == 0 && pteW e.leaf && pteTwin e.leaf != 1

/-- Whether a leaf may hold the counter array of a merge's source: as `leafCounts`, or a remote leaf, which R132 binds at the
package that holds its frames (R345). -/
def leafSource (e : Tlb) : Bool := leafCounts e || pteType e.leaf == 1

/-- The check of counter pages (check 6 of R332, R311, R338, R345) by a condition on their leaves: a failure, an absence, or
passed; and, for a change of the region as a whole, whether some leaf waits for the snapshot engine. -/
def arrayCheck (s : State) (w : WarpId) (l : List Byte) (good : Tlb → Bool) (whole : Bool) : Eng × Bool × State :=
  let c := s.coreOf w
  let cx := s.ctxOf w.team
  let pages := (List.range ((dCbase l + csize l - 1) / 2 ^ 19 - dCbase l / 2 ^ 19 + 1)).map fun k =>
    max (dCbase l) ((dCbase l / 2 ^ 19 + k) * 2 ^ 19)
  pages.foldl (fun (acc : Eng × Bool × State) va =>
    match acc.1 with
    | .ok _ =>
      match acc.2.2.xlate c cx va .load with
      | (.fail code, s) => (.fail code va, false, s)
      | (.absent, s) => (.absent va, false, s)
      | (.ok e, s) =>
        if !good e then (.fail 0x21 va, false, s)
        else if whole && pteTwin e.leaf ≠ 0 then (.ok [], true, s.drainAhead (s.partOf w.team) e.eaddr)
        else (.ok [], acc.2.1, s)
    | r => (r, acc.2.1, acc.2.2)) (.ok [], false, s)

/-! ### Merges (rows SKMRG and MERGE_UNIT) -/

/-- A merge that met a failure after issue (R406): the team halts, and the operation counts as done. -/
def mergeHalt (s : State) (w : WarpId) (id code va : Nat) : State :=
  (s.modWarp w fun x => { x with skOps := x.skOps.filter fun (k : SkOp) => k.id != id, ctr := x.ctr.add .sk false }).engHalt
    w code va

/-- A page that a merge waits for. -/
def mergePause (s : State) (w : WarpId) (o : SkOp) (va : Nat) (write : Bool) : State :=
  (s.modSk w o.id fun k => { k with paused := addOffs k.paused [pageOf va], pausedAt := amSet k.pausedAt (pageOf va) va }).engRequest
    w o.pc o.word o.mask va write

/-- Whether an older write of a merge's warp to bytes of a unit has yet to perform at the unit's home (R344): a store, or an
insert, deletion or change of a region. -/
def mergeWaits (s : State) (w : WarpId) (x : Warp) (o : SkOp) (region : Loc) (p : Loc × Nat) : Bool :=
  s.olderWrite x w o.id p || skWriting s w.team x o.id { lane := 0, ea := 0, loc := p.1, len := p.2 } ||
    (x.skOps.any fun k => k.id < o.id && wholeOp k.instr && k.lanes.head?.any fun l => sameRegion l.dloc region) ||
    memAny p.1 (s.syncHeld x.core)

/-- Bytes of a merge's source within a line, read at their home: an answer, or the state after asking for them or failing. A
unit is read once every older write of the warp to it has performed (R344). -/
def mergeSource (s : State) (w : WarpId) (x : Warp) (o : SkOp) (region : Loc) (home va n : Nat) : Option (List Byte) × State :=
  match s.xlate (s.coreOf w) (s.ctxOf w.team) va .engRead with
  | (.fail code, s) => (none, s.mergeHalt w o.id code va)
  | (.absent, s) => (none, s.mergePause w o va false)
  | (.ok e, s) =>
    if s.mergeWaits w x o region (locOf e va, n) then (none, s)
    else
    match locOf e va with
    | .mem pa key cls => let (bs, s) := (s.l1Sync x.core pa key n).weighRead home pa key cls n; (some bs, s)
    | .remote fid ad key =>
      if s.fab.reqs.any fun r => r.owner == .merge w o.id o.units then (none, s)
      else
        let p := { s.packetTo .readReq fid with score := s.coreOf w, addr := ad, key := key, len := n }
        (none, (s.sendReq p { bareReq (.merge w o.id o.units) with core := s.coreOf w, va := va } none).getD s)
    | _ => (none, s.mergeHalt w o.id 0x16 va)

/-- The place of a destination unit: in place the original, under `.sh` the twin (R172). -/
def mergePlace (s : State) (w : WarpId) (o : SkOp) (va : Nat) (twin : Bool) : Option Loc × State :=
  match s.xlate (s.coreOf w) (s.ctxOf w.team) va .engWrite with
  | (.fail code, s) => (none, s.mergeHalt w o.id code va)
  | (.absent, s) => (none, s.mergePause w o va true)
  | (.ok e, s) =>
    match s.engLoc e va twin with
    | .mem pa key cls => (some (.mem pa key cls), s)
    | _ => (none, s.mergeHalt w o.id 0x03 va)

/-- Whether a merge is published. -/
def mergeShared : Instr → Bool
  | .skmrg _ _ _ (some _) => true
  | _ => false

/-- Source bytes merged into the next unit, or, past the last unit, the source's fields into the destination's (R146). -/
def mergeApply (s : State) (w : WarpId) (id : Nat) (src : List Byte) : State :=
  match (s.warp? w).bind fun x => (skOpOf x id).map fun o => (x, o) with
  | none => s
  | some (x, o) =>
    match o.lanes with
    | d :: q :: _ =>
      let sh := mergeShared o.instr
      let va := (dCbase d.snap + 64 * o.units) % 2 ^ 64
      if !sh && memAny d.dloc (fun pa key => s.homeHeld pa key || s.syncHeld x.core pa key) then s
      else
      let s := if sh then s else s.skSync x.core { d with cols := [] }
      if o.units + 1 < o.total then
        match s.mergePlace w o va false, s.mergePlace w o va true with
        | (some old, s), (some new, _) =>
          match (old, if sh then new else old) with
          | (.mem pa key cls, .mem pb kb cb) =>
            if s.homeHeld pb kb || s.mergeWaits w x o d.dloc (.mem pa key cls, 64) then s
            else
              let (bs, s) := (s.l1Sync x.core pa key 64).weighRead (dHome d.snap) pa key cls 64
              let r := mergeBytes d.snap bs src
              let s := if sh then (s.homeWrite pb kb cb r.1).markTwin pb 64 else s.weighWrite (dHome d.snap) pb kb cb r.1
              let s := s.noteWrite w (.mem pb kb cb) 64
              let s := if sh then s else s.recordEv d.dloc r.2
              s.modSk w id fun k =>
                let d' := { d with reads := [d.reads.getD 0 0 + r.2.sats, d.reads.getD 1 0 + r.2.unds] }
                { k with units := k.units + 1, lanes := [if sh then d' else d, q] }
          | _ => s
        | (_, s), _ => s
      else
        let s := s.modSk w id fun k => { k with units := k.units + 1, lanes := [d, { q with snap := src }] }
        if sh then s
        else
          let (n, s) := s.descNat d.dloc 0x18 8
          let s := s.descPut d.dloc 0x18 8 (min (n + bytesNat src 0x18 8) (2 ^ 64 - 1))
          let (a, s) := s.descNat d.dloc 0x28 8
          let s := s.descPut d.dloc 0x28 8 ((a + bytesNat src 0x28 8) % 2 ^ 64)
          let (b, s) := s.descNat d.dloc 0x30 8
          let s := s.descPut d.dloc 0x30 8 ((b + bytesNat src 0x30 8) % 2 ^ 64)
          let (f, s) := s.descNat d.dloc 3 1
          let g := bytesNat src 3 1
          let s := s.descPut d.dloc 3 1 (setField (setField f 3 1 (max (field f 3 1) (field g 3 1))) 2 1 (min (field f 2 1) (field g 2 1)))
          s.finishSk w id
    | _ => s

/-- Whether every other operation on a region that has issued has performed (step 2 of R148). -/
def regionQuiet (s : State) (w : WarpId) (id : Nat) (d : Loc) : Bool :=
  s.warps.all fun x => x.2.skOps.all fun o => (widOf x.1 == w && o.id == id) ||
    o.lanes.all fun l => !(sameRegion l.dloc d && (wholeOp o.instr || l.done < l.steps))

/-- The next unit of a merge (row MERGE_UNIT), read at the source and merged at the destination; the last unit is the
source's fields. A published merge first waits for the older operations and opens its twins (R148). -/
def mergeUnit (s : State) (w : WarpId) (id unit : Nat) : State :=
  match (s.warp? w).bind fun x => (skOpOf x id).map fun o => (x, o) with
  | none => s
  | some (x, o) =>
    match o.lanes with
    | d :: q :: _ =>
      if !o.retired || unit ≠ o.units || o.total ≤ o.units || !o.paused.isEmpty || (x.window.any fun e => e.seq == id) ||
          (x.loads.any fun k => k.id < id && k.acq.isSome && !loadBound k) ||
          (x.skOps.any fun k => k.id < id && k.lanes.any fun l => skOpen l && !updates l.act && sameRegion l.dloc d.dloc) then s
      else
        let go := fun (s : State) =>
          let r := if o.units + 1 < o.total then
              s.mergeSource w x o q.dloc (dHome q.snap) ((dCbase q.snap + 64 * o.units) % 2 ^ 64) 64
            else s.mergeSource w x o q.dloc 0 q.desc 64
          match r with
          | (some bs, s) => s.mergeApply w id bs
          | (none, s) => s
        if mergeShared o.instr then
          if !s.regionQuiet w id d.dloc then s
          else
            let (ls, s) := s.arrayLeaves w d.snap
            match s.openLeaves w.team (leavesOf ls) with
            | (true, s) => go s
            | (false, s) => s
        else go s
    | _ => s

/-! ### Publication (row REGION_PUBLISH; step 3 of R148) -/

/-- The scope at which a change publishes. -/
def changeScope : Instr → Option Scope
  | .skmrg _ _ _ sh => sh
  | .skfold _ sc _ => some sc
  | .skclr _ sc _ => some sc
  | _ => none

/-- A descriptor out of every descriptor cache of the package. -/
def dropDescs (s : State) (d : Loc) : State :=
  match d with
  | .mem pa _ _ => s.setMem { s.mem with cores := s.mem.cores.map fun c =>
      (c.1, { c.2 with descCache := c.2.descCache.filter fun e => e.1 % 2 ^ 46 != pa }) }
  | _ => s

/-- The bytes of a counter array in its leaves, read at their homes, or written into the twins of its leaves. -/
def arrayRead (s : State) (l : List Byte) (ls : List Tlb) : List Byte × State :=
  (List.range (csize l / 64)).foldl (fun (acc : List Byte × State) u =>
    let va := dCbase l + 64 * u
    match ls.find? fun e => e.vpage == va / 2 ^ 19 with
    | none => (acc.1 ++ List.replicate 64 0, acc.2)
    | some e =>
      match locOf e va with
      | .mem pa key cls => let (bs, s) := acc.2.weighRead (dHome l) pa key cls 64; (acc.1 ++ bs, s)
      | _ => (acc.1 ++ List.replicate 64 0, acc.2)) ([], s)
def arrayWrite (s : State) (w : WarpId) (l : List Byte) (ls : List Tlb) (bs : List Byte) : State :=
  (List.range (csize l / 64)).foldl (fun (s : State) u =>
    let va := dCbase l + 64 * u
    match ls.find? fun e => e.vpage == va / 2 ^ 19 with
    | none => s
    | some e =>
      match s.engLoc e va true with
      | .mem pa key cls =>
        ((s.homeWrite pa key cls ((bs.drop (64 * u)).take 64)).markTwin pa 64).noteWrite w (.mem pa key cls) 64
      | _ => s) s

/-- The new descriptor fields of a change (R146, R149, R338): GEN rises by one. -/
def newFields (s : State) (o : SkOp) (d : SkLane) (ev : Ev) : State :=
  let (g, s) := s.descNat d.dloc 0x20 8
  let s := s.descPut d.dloc 0x20 8 ((g + 1) % 2 ^ 64)
  match o.instr with
  | .skclr _ _ _ =>
    let (f, s) := s.descNat d.dloc 3 1
    (((s.descPut d.dloc 0x18 8 0).descPut d.dloc 0x28 8 0).descPut d.dloc 0x30 8 0).descPut d.dloc 3 1
      (setField (setField f 3 1 0) 2 1 1)
  | .skfold _ _ _ => (s.descPut d.dloc 4 4 (foldParams d.snap)).recordEv d.dloc ev
  | _ =>
    let src := ((o.lanes[1]?).map SkLane.snap).getD []
    let s := s.recordEv d.dloc { Ev.none with sats := d.reads.getD 0 0, unds := d.reads.getD 1 0 }
    let (n, s) := s.descNat d.dloc 0x18 8
    let s := s.descPut d.dloc 0x18 8 (min (n + bytesNat src 0x18 8) (2 ^ 64 - 1))
    let (a, s) := s.descNat d.dloc 0x28 8
    let s := s.descPut d.dloc 0x28 8 ((a + bytesNat src 0x28 8) % 2 ^ 64)
    let (b, s) := s.descNat d.dloc 0x30 8
    let s := s.descPut d.dloc 0x30 8 ((b + bytesNat src 0x30 8) % 2 ^ 64)
    let (f, s) := s.descNat d.dloc 3 1
    let g := bytesNat src 3 1
    s.descPut d.dloc 3 1 (setField (setField f 3 1 (max (field f 3 1) (field g 3 1))) 2 1 (min (field f 2 1) (field g 2 1)))

/-- A change published: its twins turn over, the descriptor's new fields are written and the busy mark falls in one act;
`sk` falls. -/
def regionPublish (s : State) (w : WarpId) (id : Nat) : State :=
  match (s.warp? w).bind fun x => (skOpOf x id).map fun o => (x, o) with
  | none => s
  | some (x, o) =>
    match o.lanes.head?, changeScope o.instr with
    | some d, some sc =>
      if !o.retired || !o.busy || (x.window.any fun e => e.seq == id) || o.units < o.total || !s.regionQuiet w id d.dloc ||
          !s.olderDone w x id sc || memAny d.dloc s.homeHeld then s
      else
        let (ls, s) := s.arrayLeaves w d.snap
        match s.openLeaves w.team (leavesOf ls) with
        | (false, s) => s
        | (true, s) =>
          let (ls, s) := s.arrayLeaves w d.snap
          let ls := leavesOf ls
          if ls.any fun e => s.publishHeld (s.partOf w.team) e then s
          else
            let (ev, s) := match o.instr with
              | .skfold _ _ _ =>
                let (bs, s) := s.arrayRead d.snap ls
                let r := foldBytes d.snap bs
                (r.2, s.arrayWrite w d.snap ls r.1)
              | .skclr _ _ _ => (Ev.none, s.arrayWrite w d.snap ls (List.replicate (csize d.snap) 0))
              | _ => (Ev.none, s)
            let (_, s) := s.release w sc
            let s := ls.foldl (fun s e => s.publishLeaf e) s
            let s := (s.newFields o d ev).dropDescs d.dloc
            s.modWarp w fun x => { x with skOps := x.skOps.filter fun (k : SkOp) => k.id != id, ctr := x.ctr.add .sk false }
    | _, _ => s

end State

end Sys2Proof.Machine
end

