-- ==== Sys2Proof/Machine/Sketches.lean ====
section
/-! DEFINITION. Group 7, sketches (R331 to R341), and `SKMRG` (R311). -/

namespace Sys2Proof.Machine

namespace State

/-- Checks 1 and 2 of R332 of a handle: the descriptor's place under a local leaf of TYPE 00, with its class. -/
def handleCheck (s : State) (w : WarpId) (h : Nat) : (LaneRes ⊕ (Nat × Nat × Nat)) × State :=
  if h % 64 ≠ 0 then (.inl (.fail 0x13 h), s)
  else
    match s.xlate (s.coreOf w) (s.ctxOf w.team) h .load with
    | (.fail code, s) => (.inl (.fail code h), s)
    | (.absent, s) =>
      (.inl (if (((s.warp? w).map Warp.refused).getD []).contains (pageOf h) then .fail 0x10 h else .absent h), s)
    | (.ok e, s) =>
      match locOf e h with
      | .mem pa key cls => (.inr (pa, key, cls), s)
      | _ => (.inl (.fail 0x21 h), s)

/-- The checks of R332 for one lane of an explicit operation. -/
def skLane (s : State) (w : WarpId) (lane h : Nat) (act : SkDo) (key wt : Nat) (wmod : Bool) : LaneRes × State :=
  match s.handleCheck w h with
  | (.inl r, s) => (r, s)
  | (.inr p, s) => s.prepSk w lane h p.1 p.2.1 p.2.2 (fun _ => act) (fun _ => key) wt wmod

end State

/-- A sketch operation issued lane by lane (R332): the lanes that pass join its operation, which performs later. -/
def skBody (dsts stDst : List Nat) (f : Warp → Nat → Nat × SkDo × Nat × Nat × Bool) : Body := withWarp fun x w e m s =>
  let had := ((x.skOps.find? fun o => o.id == e.seq).map fun o => maskOf fun i => o.lanes.any fun q => q.lane == i).getD 0
  let todo := m &&& ~~~had
  let (rs, s) := s.laneChecks todo fun i s =>
    let (h, act, key, wt, wmod) := f x i
    s.skLane w i h act key wt wmod
  laneOutcome (s.growSk w e dsts stDst (skLanes rs)) w e.seq todo ((doneLanes rs ||| had) != 0) false rs

/-- A status field: 1023 discards it (R331). -/
def stField (r : Reg) : List Nat := if r.field = 1023 then [] else [r.field]

/-- `SKINS` (R334). -/
def bodySkins (d : Reg) (a : Pair) (b : Pair) (c : Reg) (w : Bool) : Body :=
  skBody [] (stField d) fun x i =>
    ((x.rd64 a i).toNat, .ins, (x.rd64 b i).toNat, if w then (x.rd c i).toNat else 1, w)
/-- `SKINS` dispatched by the warp that acts. -/
def execSkins (g : Guard) (d : Reg) (a b : Pair) (c : Reg) (w : Bool) (s : State) : Host.Outcome State Fault Refusal :=
  issue .normal (.skins g d a b c w) (bodySkins d a b c w) s

/-- `SKDEL` (R334). -/
def bodySkdel (d : Reg) (a : Pair) (b : Pair) (c : Reg) (w : Bool) : Body :=
  skBody [] (stField d) fun x i =>
    ((x.rd64 a i).toNat, .del, (x.rd64 b i).toNat, if w then (x.rd c i).toNat else 1, w)
/-- `SKDEL` dispatched by the warp that acts. -/
def execSkdel (g : Guard) (d : Reg) (a b : Pair) (c : Reg) (w : Bool) (s : State) : Host.Outcome State Fault Refusal :=
  issue .normal (.skdel g d a b c w) (bodySkdel d a b c w) s

/-- `SKQRY` (R336). -/
def bodySkqry (d : Reg) (a : Pair) (b : Pair) (c : Reg) : Body :=
  skBody [d.field] (stField c) fun x i => ((x.rd64 a i).toNat, .qry, (x.rd64 b i).toNat, 1, false)
/-- `SKQRY` dispatched by the warp that acts. -/
def execSkqry (g : Guard) (d : Reg) (a b : Pair) (c : Reg) (s : State) : Host.Outcome State Fault Refusal :=
  issue .normal (.skqry g d a b c) (bodySkqry d a b c) s

/-- `SKCARD` (R336). -/
def bodySkcard (d : Pair) (a : Pair) (c : Reg) : Body :=
  skBody (runOf d.field 2) (stField c) fun x i => ((x.rd64 a i).toNat, .card, 0, 1, false)
/-- `SKCARD` dispatched by the warp that acts. -/
def execSkcard (g : Guard) (d a : Pair) (c : Reg) (s : State) : Host.Outcome State Fault Refusal :=
  issue .normal (.skcard g d a c) (bodySkcard d a c) s

/-- `SKRANK` (R336). -/
def bodySkrank (d : Pair) (a : Pair) (b : Reg) (c : Reg) : Body :=
  skBody (runOf d.field 2) (stField c) fun x i => ((x.rd64 a i).toNat, .rank, (x.rd b i).toNat, 1, false)
/-- `SKRANK` dispatched by the warp that acts. -/
def execSkrank (g : Guard) (d a : Pair) (b c : Reg) (s : State) : Host.Outcome State Fault Refusal :=
  issue .normal (.skrank g d a b c) (bodySkrank d a b c) s

/-- `SKQTL` (R336). -/
def bodySkqtl (d : Reg) (a : Pair) (b : Reg) (c : Reg) : Body :=
  skBody [d.field] (stField c) fun x i => ((x.rd64 a i).toNat, .qtl, min (x.rd b i).toNat 1024, 1, false)
/-- `SKQTL` dispatched by the warp that acts. -/
def execSkqtl (g : Guard) (d : Reg) (a : Pair) (b c : Reg) (s : State) : Host.Outcome State Fault Refusal :=
  issue .normal (.skqtl g d a b c) (bodySkqtl d a b c) s

/-- `SKHASH` (R337). -/
def bodySkhash (d : Pair) (a : Pair) (b : Pair) (n : Nat) : Body :=
  withWarp fun x w _ m s =>
  putPair s w d.field m .general fun i =>
    let h := (List.range n).foldl (fun h j => qh64 (x.rd64n (if a.field = 1023 then 1023 else a.field + 2 * j) i).toNat h)
      (x.rd64 b i).toNat
    BitVec.ofNat 64 (qh64 n h)
/-- `SKHASH` dispatched by the warp that acts. -/
def execSkhash (g : Guard) (d a b : Pair) (n : Nat) (s : State) : Host.Outcome State Fault Refusal :=
  issue .normal (.skhash g d a b n) (bodySkhash d a b n) s

/-- The effect of a check of the whole warp that did not pass. -/
def resEff (s : State) (_w : WarpId) (m : Mask) : LaneRes → Eff
  | .fail code a => .trap s (Trap.at code m a) false
  | .absent va => .park s m [(State.pageOf va, va, false)] false
  | _ => .wait s

/-- The lane record of a region named by the warp. -/
def regionLane (h pa key cls : Nat) (snap : List Byte) : SkLane :=
  { lane := 0, desc := h, dloc := .mem pa key cls, dcls := cls, snap := snap, key := 0, wt := 0, act := .card, steps := 0,
    done := 0, reads := [], sat := false, und := false, cols := [] }

/-- A change of a region as a whole, issued: its operation, busy where it is published. -/
def wholeSk (e : WEntry) (m : Mask) (lanes : List SkLane) (total : Nat) (busy : Bool) : SkOp :=
  { id := e.seq, pc := e.pc, word := e.word, mask := m, instr := e.instr, lanes := lanes, dsts := [], vals := [], stDst := [],
    stVal := [], retired := false, units := 0, total := total, busy := busy, paused := [] }

/-- `SKFOLD` and `SKCLR` at issue (R148, R338): the checks of R332 and of the counter pages, then the busy mark. -/
def changeBody (fold : Bool) (a : Pair) : Body := withWarp fun x w e m s =>
  let h := (x.rd64 a ((lowest m).getD 0)).toNat
  match s.handleCheck w h with
  | (.inl r, s) => resEff s w m r
  | (.inr (pa, key, cls), s) =>
    if s.regionBusy pa || s.keyWaits key then .wait s
    else
      let (l, s) := s.descRead x.core pa key cls
      if !descOk l || (fold && foldLimit l) then .trap s (Trap.at 0x21 m h) false
      else
        match s.arrayCheck w l State.leafChanges true with
        | (.ok _, true, s) => .wait s
        | (.ok _, false, s) =>
          .done (s.modWarp w fun x => { x with skOps := x.skOps ++ [wholeSk e m [regionLane h pa key cls l] 0 true] })
        | (r, _, s) => engEff s w m false r

/-- `SKFOLD` (R149, R338). -/
def bodySkfold (a : Pair) : Body :=
  changeBody true a
/-- `SKFOLD` dispatched by the warp that acts. -/
def execSkfold (g : Guard) (sc : Scope) (a : Pair) (s : State) : Host.Outcome State Fault Refusal :=
  issue .normal (.skfold g sc a) (bodySkfold a) s

/-- `SKCLR` (R338). -/
def bodySkclr (a : Pair) : Body :=
  changeBody false a
/-- `SKCLR` dispatched by the warp that acts. -/
def execSkclr (g : Guard) (sc : Scope) (a : Pair) (s : State) : Host.Outcome State Fault Refusal :=
  issue .normal (.skclr g sc a) (bodySkclr a) s

/-- `SKSTAT` (R339). -/
def bodySkstat (d : Pair) (a : Pair) (j : Nat) : Body :=
  skBody (runOf d.field 2) [] fun x i => ((x.rd64 a i).toNat, .stat j, 0, 1, false)
/-- `SKSTAT` dispatched by the warp that acts. -/
def execSkstat (g : Guard) (d a : Pair) (j : Nat) (s : State) : Host.Outcome State Fault Refusal :=
  issue .normal (.skstat g d a j) (bodySkstat d a j) s

/-- `SKINV` (R340: check 1 of R332 only, so that a handle which maps to no descriptor drops none; its count falls as it
retires). -/
def bodySkinv (a : Pair) : Body :=
  withWarp fun x w e m s =>
  let h := (x.rd64 a ((lowest m).getD 0)).toNat
  if h % 64 ≠ 0 then .trap s (Trap.at 0x13 m h) false
  else if h ≥ 2 ^ 57 then .done (s.uncount w e.instr)
  else
    match s.translate x.core (s.ctxOf w.team) h with
    | (.leaf l, s) =>
      match State.locOf l h with
      | .win pa key _ => .done ((s.dropDescs (.mem pa key 0)).uncount w e.instr)
      | p => .done ((s.dropDescs p).uncount w e.instr)
    | (_, s) => .done (s.uncount w e.instr)
/-- `SKINV` dispatched by the warp that acts. -/
def execSkinv (g : Guard) (a : Pair) (s : State) : Host.Outcome State Fault Refusal :=
  issue .normal (.skinv g a) (bodySkinv a) s

/-- Whether an address of the warp lies under a remote leaf. -/
def remoteVa (s : State) (w : WarpId) (va : Nat) : Bool × State :=
  match s.xlate (s.coreOf w) (s.ctxOf w.team) va .load with
  | (.ok e, s) => (pteType e.leaf == 1, s)
  | (_, s) => (false, s)

/-- A merge's source descriptor in a local page: through the descriptor cache, or, where its counter array is remote, as its home
holds it (R345). -/
def mergeLocal (s : State) (w : WarpId) (pa key cls : Nat) : List Byte × State :=
  let (l, s) := s.descRead (s.coreOf w) pa key cls
  match remoteVa s w (dCbase l) with
  | (true, s) => s.homeRead pa key cls 64
  | (false, s) => (l, s)

/-- The source descriptor of a merge, local or remote (R311, R345): its 64 bytes, its place, or why they are not to be had. -/
def mergeDesc (s : State) (w : WarpId) (e : WEntry) (m : Mask) (h : Nat) : (Eff ⊕ (List Byte × Loc)) × State :=
  if h % 64 ≠ 0 then (.inl (.trap s (Trap.at 0x13 m h) false), s)
  else
    match s.xlate (s.coreOf w) (s.ctxOf w.team) h .load with
    | (.fail code, s) => (.inl (.trap s (Trap.at code m h) false), s)
    | (.absent, s) => (.inl (gotEff s w m (.absent h)), s)
    | (.ok le, s) =>
      match State.locOf le h with
      | .mem pa key cls =>
        if s.keyWaits key then (.inl (.wait s), s)
        else let (l, s) := mergeLocal s w pa key cls; (.inr (l, .mem pa key cls), s)
      | .remote fid ad key =>
        match s.arrived? w e.seq fid ad with
        | some l => (.inr (l, .remote fid ad key), s)
        | none => let s := s.askRemote w e.seq fid ad key 64; (.inl (.wait s), s)
      | _ => (.inl (.trap s (Trap.at 0x21 m h) false), s)

/-- Whether two regions may be merged (R146). -/
def mergeable (a b : List Byte) : Bool :=
  dType a == dType b && dHver a == dHver b && dCons a == dCons b && dCntf a == dCntf b && dParams a == dParams b &&
  dSeed a == dSeed b

/-- `SKMRG` (R146 to R148, R311), with the checks of both counter arrays (R332, R345). -/
def bodySkmrg (a : Pair) (b : Pair) (sh : Option Scope) : Body :=
  withWarp fun x w e m s =>
  let l := (lowest m).getD 0
  let hd := (x.rd64 a l).toNat
  let hs := (x.rd64 b l).toNat
  match s.handleCheck w hd with
  | (.inl r, s) => resEff s w m r
  | (.inr (pa, key, cls), s) =>
    match mergeDesc s w e m hs with
    | (.inl eff, _) => eff
    | (.inr (src, sloc), s) =>
      let busySrc := match sloc with
        | .mem p _ _ => s.regionBusy p
        | _ => false
      if s.regionBusy pa || s.keyWaits key || busySrc then .wait s
      else
        let (dst, s) := s.descRead x.core pa key cls
        if !descOk dst then .trap s (Trap.at 0x21 m hd) false
        else if !descOk src then .trap s (Trap.at 0x21 m hs) false
        else if !mergeable dst src then .trap s (Trap.at 0x21 m hd) false
        else
          match s.arrayCheck w dst (if sh.isSome then State.leafChanges else State.leafCounts) sh.isSome with
          | (.ok _, true, s) => .wait s
          | (.ok _, false, s) =>
            match s.arrayCheck w src State.leafSource false with
            | (.ok _, _, s) =>
            let ls := [regionLane hd pa key cls dst, { regionLane hs 0 0 0 src with dloc := sloc }]
            .done ((s.inboxDrop w e.seq).modWarp w fun x =>
              { x with skOps := x.skOps ++ [wholeSk e m ls (csize dst / 64 + 1) sh.isSome] })
            | (r, _, s) => engEff s w m false r
          | (r, _, s) => engEff s w m false r
/-- `SKMRG` dispatched by the warp that acts. -/
def execSkmrg (g : Guard) (a b : Pair) (sh : Option Scope) (s : State) : Host.Outcome State Fault Refusal :=
  issue .normal (.skmrg g a b sh) (bodySkmrg a b sh) s

end Sys2Proof.Machine
end

