-- ==== Sys2Proof/Machine/Retire.lean ====
section
/-! DEFINITION. Completion before retirement and retirement of any instruction (R69 to R74, R83). -/

namespace Sys2Proof.Machine

/-- The body of an instruction that executes in the window; branches and events have none. -/
def headBody : Instr → Option Body
  | .nop _ => some (bodyNop)
  | .bra _ _ => none
  | .brx _ _ => none
  | .call _ _ _ => none
  | .callx _ _ _ => none
  | .ret _ _ => none
  | .exit _ => none
  | .yield _ => some (bodyYield)
  | .wait _ c n => some (bodyWait c n)
  | .bara _ d cnt b => some (bodyBara d cnt b)
  | .barw _ a b => some (bodyBarw a b)
  | .bars _ cnt b => some (bodyBars cnt b)
  | .rput _ n st => some (bodyRput n st)
  | .rget _ n st _ => some (bodyRget n st)
  | .rrel _ n st => some (bodyRrel n st)
  | .sread _ d sr => some (bodySread d sr)
  | .swrite _ sr b => some (bodySwrite sr b)
  | .reggrow _ d n nw => some (bodyReggrow d n nw)
  | .regshrink _ n => some (bodyRegshrink n)
  | .tagq _ d a => some (bodyTagq d a)
  | .launch _ d a => some (bodyLaunch d a)
  | .lwait _ d a nb => some (bodyLwait d a nb)
  | .trap _ n => some (bodyTrap n)
  | .brk _ n => some (bodyBrk n)
  | .tret _ skip => some (bodyTret skip)
  | .tinfo _ d j => some (bodyTinfo d j)
  | .tlbinv _ a b all => some (bodyTlbinv a b all)
  | .iadd _ d a b k => some (bodyIadd d a b k)
  | .isub _ d a b k => some (bodyIsub d a b k)
  | .imul _ d a b => some (bodyImul d a b)
  | .imulh _ d a b u => some (bodyImulh d a b u)
  | .imad _ d a b c => some (bodyImad d a b c)
  | .imadw _ d a b c u => some (bodyImadw d a b c u)
  | .iadd64 _ d a b => some (bodyIadd64 d a b)
  | .isub64 _ d a b => some (bodyIsub64 d a b)
  | .imin _ d a b u => some (bodyImin d a b u)
  | .imax _ d a b u => some (bodyImax d a b u)
  | .iabs _ d a sat => some (bodyIabs d a sat)
  | .ineg _ d a sat => some (bodyIneg d a sat)
  | .isat _ d a r => some (bodyIsat d a r)
  | .idiv _ d a b u => some (bodyIdiv d a b u)
  | .irem _ d a b u => some (bodyIrem d a b u)
  | .idot4 _ d a b c ua ub => some (bodyIdot4 d a b c ua ub)
  | .idot2 _ d a b c ua ub => some (bodyIdot2 d a b c ua ub)
  | .lea _ d a b sh sx => some (bodyLea d a b sh sx)
  | .and _ d a b => some (bodyAnd d a b)
  | .or _ d a b => some (bodyOr d a b)
  | .xor _ d a b => some (bodyXor d a b)
  | .andn _ d a b => some (bodyAndn d a b)
  | .not _ d a => some (bodyNot d a)
  | .lop3 _ d a b lut => some (bodyLop3 d a b lut)
  | .shl _ d a b => some (bodyShl d a b)
  | .shr _ d a b => some (bodyShr d a b)
  | .sar _ d a b => some (bodySar d a b)
  | .rotl _ d a b => some (bodyRotl d a b)
  | .funl _ d a b c => some (bodyFunl d a b c)
  | .funr _ d a b c => some (bodyFunr d a b c)
  | .popc _ d a => some (bodyPopc d a)
  | .clz _ d a => some (bodyClz d a)
  | .ctz _ d a => some (bodyCtz d a)
  | .brev _ d a => some (bodyBrev d a)
  | .bfx _ d a b sx => some (bodyBfx d a b sx)
  | .bfi _ d a b c => some (bodyBfi d a b c)
  | .prmt _ d a b c => some (bodyPrmt d a b c)
  | .isetp _ pd a b cc u => some (bodyIsetp pd a b cc u)
  | .sel _ d a b pc => some (bodySel d a b pc)
  | .mov _ d b => some (bodyMov d b)
  | .movi _ d x => some (bodyMovi d x)
  | .movu _ d b => some (bodyMovu d b)
  | .plop3 _ pd pa pb lut => some (bodyPlop3 pd pa pb lut)
  | .p2v _ d pa => some (bodyP2v d pa)
  | .v2p _ pd a mask => some (bodyV2p pd a mask)
  | .vote _ pd pa m => some (bodyVote pd pa m)
  | .pcnt _ d pa => some (bodyPcnt d pa)
  | .elect _ pd => some (bodyElect pd)
  | .shfl _ d a b m => some (bodyShfl d a b m)
  | .bcast _ d a b => some (bodyBcast d a b)
  | .redux _ d a op => some (bodyRedux d a op)
  | .scan _ d a op excl => some (bodyScan d a op excl)
  | .match _ d a b64 => some (bodyMatch d a b64)
  | .cvtif _ d a rnd u fmt s64 => some (bodyCvtif d a rnd u fmt s64)
  | .cvtfi _ d a rnd u fmt d64 => some (bodyCvtfi d a rnd u fmt d64)
  | .cvtff _ d a rnd dst src => some (bodyCvtff d a rnd dst src)
  | .cvtn _ d a b slot => some (bodyCvtn d a b slot)
  | .cvtw _ d a b slot => some (bodyCvtw d a b slot)
  | .cbdec _ d a fmt hi => some (bodyCbdec d a fmt hi)
  | .scalq _ d a slot => some (bodyScalq d a slot)
  | .amax _ d a b warp fmt => some (bodyAmax d a b warp fmt)
  | .fadd _ d a b m => some (bodyFadd d a b m)
  | .fsub _ d a b m => some (bodyFsub d a b m)
  | .fmul _ d a b m => some (bodyFmul d a b m)
  | .ffma _ d a b c m => some (bodyFfma d a b c m)
  | .fmin _ d a b => some (bodyFmin d a b)
  | .fmax _ d a b => some (bodyFmax d a b)
  | .fsetp _ pd a b cc => some (bodyFsetp pd a b cc)
  | .fclass _ d a => some (bodyFclass d a)
  | .frnd _ d a rnd => some (bodyFrnd d a rnd)
  | .frcp _ d a => some (bodyFrcp d a)
  | .frsq _ d a => some (bodyFrsq d a)
  | .fsqrt _ d a rnd => some (bodyFsqrt d a rnd)
  | .fdiv _ d a b rnd => some (bodyFdiv d a b rnd)
  | .fexpf _ d a => some (bodyFexpf d a)
  | .flogf _ d a => some (bodyFlogf d a)
  | .fsin _ d a => some (bodyFsin d a)
  | .fcos _ d a => some (bodyFcos d a)
  | .fscale _ d a b rnd => some (bodyFscale d a b rnd)
  | .fexpo _ d a => some (bodyFexpo d a)
  | .fmant _ d a => some (bodyFmant d a)
  | .hadd2 _ d a b m => some (bodyHadd2 d a b m)
  | .hmul2 _ d a b m => some (bodyHmul2 d a b m)
  | .hfma2 _ d a b c m => some (bodyHfma2 d a b c m)
  | .hmnmx2 _ d a b max bf => some (bodyHmnmx2 d a b max bf)
  | .fdot2 _ d a b c m => some (bodyFdot2 d a b c m)
  | .dadd _ d a b m => some (bodyDadd d a b m)
  | .dmul _ d a b m => some (bodyDmul d a b m)
  | .dfma _ d a b c m => some (bodyDfma d a b c m)
  | .ld _ sp w d a off => some (bodyLd sp w d a off)
  | .st _ sp w ofl d a off => some (bodySt sp w ofl d a off)
  | .ldk _ d a win b64 => some (bodyLdk d a win b64)
  | .ldacq _ sp w sc d a off => some (bodyLdacq sp w sc d a off)
  | .strel _ sp w sc d a off => some (bodyStrel sp w sc d a off)
  | .atom _ op m d a b => some (bodyAtom op m d a b)
  | .atomc _ m d a b c => some (bodyAtomc m d a b c)
  | .red _ op m a b => some (bodyRed op m a b)
  | .fence _ sc => some (bodyFence sc)
  | .fencea _ mask => some (bodyFencea mask)
  | .cwb _ l2 a b => some (bodyCwb l2 a b)
  | .cinv _ l2 a b => some (bodyCinv l2 a b)
  | .cpf _ l2 a off => some (bodyCpf l2 a off)
  | .slcdr _ b => some (bodySlcdr b)
  | .cpy _ ds ss d a b off => some (bodyCpy ds ss d a b off)
  | .cpyt _ ds ss d a b off => some (bodyCpyt ds ss d a b off)
  | .cpyx _ ds ss d a b off => some (bodyCpyx ds ss d a b off)
  | .cpyo _ ds ss d a b off => some (bodyCpyo ds ss d a b off)
  | .cseal _ d => some (bodyCseal d)
  | .cwait _ a => some (bodyCwait a)
  | .shopen _ a b => some (bodyShopen a b)
  | .publish _ sc a b => some (bodyPublish sc a b)
  | .shdrop _ a b => some (bodyShdrop a b)
  | .put _ ss ntf d a b off => some (bodyPut ss ntf d a b off)
  | .get _ ds ntf d a b off => some (bodyGet ds ntf d a b off)
  | .mcast _ a b c => some (bodyMcast a b c)
  | .lreg _ d a b c => some (bodyLreg d a b c)
  | .ldereg _ b => some (bodyLdereg b)
  | .send _ len a b c => some (bodySend len a b c)
  | .rpost _ len d a b c => some (bodyRpost len d a b c)
  | .rpoll _ d a => some (bodyRpoll d a)
  | .coll _ a => some (bodyColl a)
  | .skmrg _ a b sh => some (bodySkmrg a b sh)
  | .tarm _ d a b c => some (bodyTarm d a b c)
  | .tadd _ a b => some (bodyTadd a b)
  | .trd _ d a => some (bodyTrd d a)
  | .tdisarm _ d a => some (bodyTdisarm d a)
  | .mma _ t a b m => some (bodyMma t a b m)
  | .mmas _ t a b c m => some (bodyMmas t a b c m)
  | .mmac _ t a b m => some (bodyMmac t a b m)
  | .mzero _ t => some (bodyMzero t)
  | .mrd _ d t _ => some (bodyMrd d t)
  | .mwr _ t a _ => some (bodyMwr t a)
  | .mld _ t a => some (bodyMld t a)
  | .mst _ t gl cvt slot a => some (bodyMst t gl cvt slot a)
  | .mrel _ => some (bodyMrel)
  | .skins _ d a b c w => some (bodySkins d a b c w)
  | .skdel _ d a b c w => some (bodySkdel d a b c w)
  | .skqry _ d a b c => some (bodySkqry d a b c)
  | .skcard _ d a c => some (bodySkcard d a c)
  | .skrank _ d a b c => some (bodySkrank d a b c)
  | .skqtl _ d a b c => some (bodySkqtl d a b c)
  | .skhash _ d a b n => some (bodySkhash d a b n)
  | .skfold _ _ a => some (bodySkfold a)
  | .skclr _ _ a => some (bodySkclr a)
  | .skstat _ d a j => some (bodySkstat d a j)
  | .skinv _ a => some (bodySkinv a)
  | .clauseDispatch _ => none
  | .laneComplete _ _ => none
  | .instructionRetire _ => none
  | .loadBind _ _ _ => none
  | .storePerform _ _ _ => none
  | .writeAcknowledged _ _ => none
  | .l1WritebackTimer _ _ _ _ => none
  | .l1PeriodicInvalidate _ => none
  | .overflowSignatureClear _ => none
  | .porterServe _ => none
  | .copyTransfer _ _ => none
  | .copyLand _ _ => none
  | .batchFinish _ _ => none
  | .tileOpExecute _ _ => none
  | .weigherUpdate _ _ _ => none
  | .mergeUnit _ _ _ => none
  | .regionPublish _ _ => none
  | .lawLostReport _ _ _ => none
  | .cowTwinCopy _ _ => none
  | .fillReroute _ => none
  | .doorbell _ _ => none
  | .hostRingCopy _ => none
  | .recordArrival _ => none
  | .remoteLaunchDelivery _ => none
  | .teamPlace _ => none
  | .teamExit _ => none
  | .gridRetire _ => none
  | .retirementReport _ => none
  | .retirementIncrement _ => none
  | .preemptRequest _ => none
  | .contextResume _ => none
  | .contextDefine _ _ _ _ => none
  | .contextDiscard _ => none
  | .deadlineExpire _ => none
  | .teamSave _ => none
  | .handlerEntry _ => none
  | .teamHalt _ => none
  | .watchdogExpire _ => none
  | .eventAppend _ => none
  | .pageServiceAnswer _ _ => none
  | .pageServiceRefuse _ _ => none
  | .correctedError _ => none
  | .uncorrectableError _ => none
  | .readRequest _ => none
  | .write _ => none
  | .atomicOrRed _ => none
  | .readOrAtomicResponse _ => none
  | .acknowledgement _ => none
  | .orderedFlagWrite _ => none
  | .streamClose _ => none
  | .message _ => none
  | .multicastDelivery _ => none
  | .collectiveChunk _ => none
  | .negativeAcknowledgement _ => none
  | .remoteTimeout _ => none
  | .flagHoldTimeout _ => none
  | .treeBreak _ => none
  | .treeCreate _ => none
  | .treeRelease _ => none
  | .packageReset => none
  | .functionReady _ => none
  | .linkTraining _ _ _ _ => none
  | .bar2Read _ _ => none
  | .bar2Write _ _ => none
  | .tlbi _ => none
  | .keyLoad => none
  | .keyZero => none
  | .partitionEnable _ _ => none
  | .partitionDisable _ _ => none
  | .redir _ => none
  | .energyWindowBoundary => none
  | .chargeExpire _ _ => none
  | .snapshotArm _ _ => none
  | .snapshotCut _ => none
  | .carterDrainPage _ _ => none
  | .snapshotRetry _ => none
  | .snapshotAbort _ => none
  | .registerWrite _ _ => none
  | .streamEntryCloseTimeout _ => none
  | .treeRequestStatus _ _ => none

/-- The instructions that hold the warp's later loads until they have executed: acquires, fences, waits, and what changes
how a later load reads (R51, R163, R165, R183, R189, R245, R253, R256, R300, R305, R306; R170 for a copy into scratch, as
which an `MST` to scratch counts, R325). -/
def holdsLoads : Instr → Bool
  | .ldacq _ _ _ _ _ _ _ => true
  | .atom _ _ m _ _ _ => (acqOf m).isSome
  | .atomc _ m _ _ _ _ => (acqOf m).isSome
  | .fence _ _ => true
  | .fencea _ _ => true
  | .rget _ _ _ _ => true
  | .rput _ _ _ => true
  | .barw _ _ _ => true
  | .bars _ _ _ => true
  | .lwait _ _ _ _ => true
  | .rpoll _ _ _ => true
  | .cwait _ _ => true
  | .tlbinv _ _ _ _ => true
  | .cinv _ _ _ _ => true
  | .shopen _ _ _ => true
  | .publish _ _ _ _ => true
  | .shdrop _ _ _ => true
  | .cpy _ ds _ _ _ _ _ => ds != .gl
  | .cpyt _ ds _ _ _ _ _ => ds != .gl
  | .cpyx _ ds _ _ _ _ _ => ds != .gl
  | .cpyo _ ds _ _ _ _ _ => ds != .gl
  | .get _ ds _ _ _ _ _ => ds != .gl
  | .mst _ _ gl _ _ _ => !gl
  | _ => false

/-- What a control instruction does at dispatch; any other is none of them. -/
def branchAct : Instr → Option (WarpId → Warp → Cursor → Mask → Except Trap Branch)
  | .bra _ off => some (actBra off)
  | .brx _ a => some (actBrx a)
  | .call _ d off => some (actCall d off)
  | .callx _ d a => some (actCallx d a)
  | .ret _ a => some (actRet a)
  | .exit _ => some actExit
  | _ => none

/-- The loads that may pass older accesses of their warp (R74): plain loads, loads of the constant window, acquires. An
atomic performs only after it has retired (R75). -/
def passes : Instr → Bool
  | .ld _ _ _ _ _ _ => true
  | .ldk _ _ _ _ _ => true
  | .ldacq _ _ _ _ _ _ _ => true
  | _ => false

/-- Whether an instruction may complete before it is the oldest of its warp: an operation on registers, or a load that may
pass. -/
def earlyKind : Instr → Bool
  | .ld _ _ _ _ _ _ => true
  | .ldk _ _ _ _ _ => true
  | .ldacq _ _ _ _ _ _ _ => true
  | .tagq _ _ _ => true
  | .sread _ _ _ => true
  | i => groupOf i == 1 || groupOf i == 2 || groupOf i == 3

namespace State

/-- Lanes of an instruction of a warp completed before it is retired (R69, R70, R74, R83): it executes on its warp as seen
behind the older instructions, and its results wait for its retirement. Some lanes of an operation on registers may
complete before the others, once the old value of its destination is ready as well (log 53); a load completes its lanes
together. A fault or a park waits until the instruction is the oldest (R368, R404). -/
def completeEarly (s : State) (w : WarpId) (x : Warp) (older : List WEntry) (e : WEntry) (on : Mask) : State :=
  let v := viewOf x older
  let m := e.mask &&& v.guardMask (guardOf e.instr)
  let set := fun (y : Warp) (r : WResult) =>
    { y with window := y.window.map fun (f : WEntry) => if f.seq = e.seq then { f with result := r, left := m &&& ~~~on } else f }
  let old := (runNames (writeRuns (s.slots w) e.instr)).all (s.regReady w x older) && (predWrites e.instr).all (predReady older)
  let on := if passes e.instr then m else on
  if m = 0 then s.setWarp w (set x (.alu [] []))
  else if m &&& on = 0 || (m &&& ~~~on != 0 && !old) then s
  else
    match headBody e.instr with
    | none => s
    | some b =>
      match b w e m (s.setWarp w { v with window := [] }) with
      | .wait s' => s'.setWarp w x
      | .trap _ _ _ => s
      | .park _ _ _ _ => s
      | .done s' =>
        let y := (s'.warp? w).getD v
        if y.skOps.any fun o => o.id == e.seq then s
        else
          match y.loads.find? fun l => l.id == e.seq with
          | some l => (s'.setWarp w (set { x with loads := x.loads ++ [l] } .load)).squash w e.seq l.accs
          | none =>
            let regs := (runNames (writeRuns (s.slots w) e.instr)).map fun n => (n, y.reg n)
            let preds := (predWrites e.instr).map fun n => (n, y.pred n)
            s'.setWarp w (set x (.alu regs preds))

/-- Row LANE_COMPLETE: lanes of the window entry with number `k` complete where they may. -/
def laneComplete (s : State) (w : WarpId) (k : Nat) (on : Mask) : State :=
  match s.warp? w with
  | none => s
  | some x =>
    match x.window.find? fun e => e.seq == k with
    | none => s
    | some e =>
      let older := x.window.filter fun f => f.seq < k
      if e.result != .none then
        s.setWarp w { x with window := x.window.map fun f => if f.seq = k then { f with left := f.left &&& ~~~on } else f }
      else if !earlyKind e.instr || (passes e.instr && older.any fun f => holdsLoads f.instr) ||
          (runNames (writeRuns (s.slots w) e.instr)).any (fun n => n ≥ 960) || !s.opsReady w x older e.instr e.mask then s
      else s.completeEarly w x older e on

/-- The instruction at the position of the warp that acts dispatched as any is. -/
def dispatchAny (i : Instr) (s : State) : Host.Outcome State Fault Refusal :=
  match headBody i, branchAct i with
  | some b, _ => issue (if serialInstr i then .serial else .normal) i b s
  | none, some a => issueBranch i a s
  | none, none => .next s

/-- Row INSTRUCTION_RETIRE: the oldest instruction of a warp, in and past its clause. -/
def instructionRetire (s : State) (w : WarpId) : State := (s.retireHead w headBody).endClause w

end State

end Sys2Proof.Machine
end

