-- ==== Sys2Proof/Machine/Clause.lean ====
section
/-! DEFINITION. Clauses (R54, R63 to R65, R223 to R226): which entry a warp selects, what its selection comes to, which
warps are ready, and the auction of a port (row CLAUSE_DISPATCH). -/

namespace Sys2Proof.Machine

/-- What the fetch of one word comes to (R117, R226). -/
inductive Fetch where
  | word (x : DWord)
  | fail (code : Nat)
  | absent
  | wait
  deriving DecidableEq, Repr

/-- What the selection of a clause comes to, with the header word where it could be read. -/
inductive Sel where
  /-- the clause dispatches: the position before its first instruction -/
  | clause (c : Cursor)
  /-- the warp takes a safe point (R95) -/
  | safe
  | trap (word : DWord) (t : Trap)
  | park (word : DWord) (va : Nat)
  | wait
  deriving DecidableEq, Repr

/-! ### Clause headers (Table 11-1) -/

def hdrMark (h : DWord) : Bool := field h.toNat 60 4 == 0xB
def hdrCount (h : DWord) : Nat := field h.toNat 4 5
def hdrEng (h : DWord) : Nat := field h.toNat 0 4
def hdrYield (h : DWord) : Bool := h.getLsbD 57
/-- The wait field of a counter. -/
def hdrWait (h : DWord) (c : Ctr) : Nat :=
  match c with
  | .ld => field h.toNat 10 6
  | .st => field h.toNat 16 6
  | .cb => field h.toNat 22 6
  | .tl => field h.toNat 28 6
  | .sk => field h.toNat 34 6

/-- Whether a header is legal (R224). -/
def hdrLegal (h : DWord) : Bool :=
  hdrMark h && 1 ≤ hdrCount h && hdrCount h ≤ 24 && hdrEng h < 4 && !h.getLsbD 9 && field h.toNat 40 8 == 0 &&
    field h.toNat 58 2 == 0

/-- Whether the counters of a warp meet a header's wait fields (R64): 63 always passes. -/
def waitsMet (h : DWord) (c : Counters) : Bool :=
  [Ctr.ld, .st, .cb, .tl, .sk].all fun k => hdrWait h k == 63 || c.get k ≤ hdrWait h k

/-! ### Frontier selection (R54) -/

/-- The entry with the lowest address. -/
def lowestEntry (l : List FEntry) : Option FEntry :=
  l.foldl (fun (b : Option FEntry) e =>
    match b with
    | none => some e
    | some d => if e.addr < d.addr then some e else some d) none

/-- The entry of a frontier that is selected. -/
def selectEntry (fr : List FEntry) : Option FEntry :=
  match lowestEntry (fr.filter fun e => 64 ≤ e.passes) with
  | some e => some e
  | none =>
    let left := fr.filter fun e => !(e.rejoin && fr.any fun d => d.addr < e.addr && !d.rejoin)
    let top := left.foldl (fun p e => max p e.prio) 0
    lowestEntry (left.filter fun e => e.prio == top)

/-- The other entries after the dispatch of one, each passed over once more. -/
def passOver (fr : List FEntry) (e : FEntry) : List FEntry :=
  (fr.filter fun d => d.addr != e.addr).map fun d => { d with passes := min 64 (d.passes + 1) }

namespace State

/-! ### Fetch -/

/-- One word of a clause (R117, R223, R405). -/
def fetchAt (s : State) (w : WarpId) (va : Nat) : Fetch × State :=
  let c := s.coreOf w
  match s.xlate c (s.ctxOf w.team) va .fetch with
  | (.fail code, s) => (.fail code, s)
  | (.absent, s) => (if (((s.warp? w).map Warp.refused).getD []).contains (pageOf va) then .fail 0x10 else .absent, s)
  | (.ok e, s) =>
    match locOf e va with
    | .mem pa key cls =>
      if s.keyWaits key && (amFind (s.core c).codeCache (cacheKey none pa key)).isNone then (.wait, s)
      else let (x, s) := s.codeWord c pa key cls; (.word x, s)
    | .remote fid addr key =>
      match amFind (s.core c).codeCache (cacheKey (some fid) addr key) with
      | some x => (.word x, s)
      | none => (.wait, s.fetchRemote c fid addr key none)
    | _ => (.fail 0x16, s)

/-- The first address of a list whose word cannot be had, or all the words. -/
def fetchAll (s : State) (w : WarpId) : List Nat → Except (Fetch × Nat) (List DWord) × State
  | [] => (.ok [], s)
  | va :: l =>
    match s.fetchAt w va with
    | (.word x, s) =>
      match fetchAll s w l with
      | (.ok xs, s) => (.ok (x :: xs), s)
      | r => r
    | (f, s) => (.error (f, va), s)

/-- The outcome of a word that cannot be had. -/
def fetchSel (word : DWord) (m : Mask) (f : Fetch) (va : Nat) : Sel :=
  match f with
  | .word _ => .wait
  | .wait => .wait
  | .absent => .park word va
  | .fail code => .trap word (Trap.at code m va)

/-- What the selection of an entry comes to: the header and its wait fields (R64), a report of a lost law (R414), the
legality of the header (R224), the role (R225), a safe point (R95, R372), and the fetch of the whole clause (R223). -/
def selectClause (s : State) (w : WarpId) (x : Warp) (e : FEntry) : Sel × State :=
  match s.fetchAt w e.addr with
  | (.word h, s) =>
    if !waitsMet h x.ctr then (.wait, s)
    else
      match x.lawLost with
      | some (a, d) => (.trap h { Trap.at 0x22 e.mask a with aux := d }, s)
      | none =>
        if !hdrLegal h then (.trap h (Trap.warp 0x02 e.mask), s)
        else if !roleAllows x.role (hdrEng h) then (.trap h (Trap.warp 0x05 e.mask), s)
        else if hdrYield h && (s.ctx (s.ctxOf w.team)).preq && !x.inHandler then (.safe, s)
        else
          let n := hdrCount h
          match s.fetchAll w ((List.range n).map fun k => e.addr + 8 * (k + 1)) with
          | (.ok l, s) =>
            (.clause { hdr := e.addr, pc := e.addr + 8, last := e.addr + 8 * (n + 1), live := e.mask, rmask := e.mask,
                       eng := hdrEng h, words := l }, s)
          | (.error (f, va), s) => (fetchSel h e.mask f va, s)
  | (f, s) => (fetchSel 0 e.mask f e.addr, s)

/-- The nearest header before an instruction: only a header carries the mark (R389). -/
def headerBefore (s : State) (w : WarpId) (pc : Nat) : Nat → (Except (Fetch × Nat) (Option (Nat × DWord))) × State
  | 0 => (.ok none, s)
  | k + 1 =>
    match headerBefore s w pc k with
    | (.ok none, s) =>
      if pc < 8 * (k + 1) then (.ok none, s)
      else
        match s.fetchAt w (pc - 8 * (k + 1)) with
        | (.word h, s) => (.ok (if hdrMark h then some (pc - 8 * (k + 1), h) else none), s)
        | (f, s) => (.error (f, pc - 8 * (k + 1)), s)
    | r => r

/-- The rest of the clause of a resumed position, fetched before it dispatches (R101). -/
def selectResumed (s : State) (w : WarpId) (c : Cursor) : Sel × State :=
  match s.headerBefore w c.pc 25 with
  | (.error (f, va), s) => (fetchSel 0 c.rmask f va, s)
  | (.ok none, s) => (.trap 0 (Trap.warp 0x02 c.rmask), s)
  | (.ok (some (a, h)), s) =>
    let last := a + 8 * (hdrCount h + 1)
    if !hdrLegal h || last < c.pc then (.trap h (Trap.warp 0x02 c.rmask), s)
    else
      match s.fetchAll w ((List.range ((last - c.pc) / 8)).map fun k => c.pc + 8 * k) with
      | (.ok l, s) => (.clause { c with hdr := a, last := last, eng := hdrEng h, words := l }, s)
      | (.error (f, va), s) => (fetchSel h c.rmask f va, s)

/-! ### Readiness (R64) and the auction (R65) -/

/-- Whether a warp waits for its records to be written to a full event ring (R369). -/
def recordsHeld (s : State) (w : WarpId) : Bool := (s.ctx (s.ctxOf w.team)).events.any fun r => r.owner == some w

/-- Whether a warp may hold a port at all: it runs, or handles a trap on a bank, and nothing has stopped it. -/
def mayRun (s : State) (w : WarpId) (x : Warp) : Bool :=
  x.port.isNone && x.halt.isNone && x.park.isNone && x.window.length < Config.warpWindow &&
    (x.status == .running || (x.status == .handler && !waitsBank x)) && !s.recordsHeld w &&
    ((s.team? w.team).any fun t => t.status == .placed || t.status == .yielding)

/-- Whether the header of an entry is still on its way from another package. -/
def headerComing (s : State) (w : WarpId) (e : FEntry) : Bool :=
  !e.known && match (s.fetchAt w e.addr).1 with
    | .wait => true
    | _ => false

/-- What the warp would do with a port: none where it is not ready. A selection among several entries waits for the headers
of them all (R53, R54). A fault, a park or a safe point of the selection waits until every older instruction has retired
(R95, R368, R404). -/
def readySel (s : State) (w : WarpId) (x : Warp) : Option Sel × State :=
  if !s.mayRun w x then (none, s)
  else
    let (r, s') := match x.cursor with
      | some c => if c.words.isEmpty then s.selectResumed w c else (.clause c, s)
      | none =>
        match selectEntry x.fr with
        | none => (.wait, s)
        | some e => if x.fr.length ≠ 1 && x.fr.any (s.headerComing w) then (.wait, s) else s.selectClause w x e
    match r with
    | .wait => (none, s')
    | .clause c => (some (.clause c), s')
    | r => if x.window.isEmpty then (some r, s') else (none, s')

/-- The headers that entries of the warps still lack read, and the words of other packages that a warp waits for before it is
ready asked for (R53, R64, R226). -/
def fetches (s : State) : State :=
  s.warps.foldl (fun (s : State) e =>
    let w := widOf e.1
    let s := if e.2.fr.all FEntry.known then s else s.learn w
    match s.warp? w with
    | none => s
    | some x =>
      match s.readySel w x with
      | (none, s') => if s'.fab.nextReq = s.fab.nextReq then s else s'
      | _ => s) s

/-- Whether a warp is ready for a port. -/
def isReady (s : State) (w : WarpId) (x : Warp) : Bool := (s.readySel w x).1.isSome

/-- Every warp marked with the cycle since which it is ready. -/
def noteReady (s : State) : State :=
  let mark := fun (e : Nat × Warp) =>
    let since := if s.isReady (widOf e.1) e.2 then some (e.2.readySince.getD s.clock) else none
    if e.2.port.isSome then e else (e.1, { e.2 with readySince := since })
  { s with warps := s.warps.map mark }

/-- Whether the first of two ready warps wins an auction over the second (R65). -/
def wins (s : State) (a b : WarpId × Warp) : Bool :=
  let trap := fun (x : Warp) => bit (x.status == .handler)
  let fair := fun (x : Warp) => if x.fair ≥ 64 then x.fair else 0
  let sys := fun (w : WarpId) => bit (s.isSys w.team)
  let since := fun (x : Warp) => x.readySince.getD s.clock
  if trap a.2 ≠ trap b.2 then trap a.2 > trap b.2
  else if fair a.2 ≠ fair b.2 then fair a.2 > fair b.2
  else if sys a.1 ≠ sys b.1 then sys a.1 > sys b.1
  else if since a.2 ≠ since b.2 then since a.2 < since b.2
  else a.2.slot < b.2.slot

/-- The winner among ready warps. -/
def winner (s : State) (l : List (WarpId × Warp)) : Option (WarpId × Warp) :=
  l.foldl (fun (b : Option (WarpId × Warp)) e =>
    match b with
    | none => some e
    | some d => if s.wins e d then some e else some d) none

/-- The position of a fault or a park at the selection, and the frontier that it leaves. -/
def selPos (x : Warp) (word : DWord) (parks : Bool) : Pos :=
  match x.cursor with
  | some c => { pc := c.pc, word := word, mask := c.rmask, hdr := false, frontier := x.fr, cursor := some c }
  | none =>
    match selectEntry x.fr with
    | none => { pc := 0, word := word, mask := 0, hdr := true, frontier := x.fr, cursor := none }
    | some e =>
      { pc := e.addr, word := word, mask := e.mask, hdr := true, cursor := none
        frontier := if parks then x.fr else x.fr.filter fun d => d.addr != e.addr }

/-- What a warp that has won a port does with it. -/
def takePort (s : State) (w : WarpId) (x : Warp) (port : Nat) (r : Sel) : State :=
  match r with
  | .wait => s
  | .clause c =>
    let fr := match x.cursor, selectEntry x.fr with
      | none, some e => passOver x.fr e
      | _, _ => x.fr
    ((s.setWarp w { x with fr := fr, cursor := some c, port := some port }).setCur (some w)).endClause w
  | .safe => s.setWarp w { x with status := .yielded, wdHeld := some (s.clock - x.lastRetire) }
  | .trap word t =>
    let x := if t.code = 0x22 then { x with lawLost := none } else x
    (s.setWarp w x).takeTrap w countersOf (selPos x word false) t
  | .park word va => s.parkWarp w countersOf (selPos x word true) (selPos x word true).mask [(pageOf va, va, false)]

/-- Row CLAUSE_DISPATCH: the lowest free port of a core given to the ready warp that wins the auction; every other
ready warp has been passed over in this cycle. -/
def clauseDispatch (s : State) (core : Nat) : State :=
  let here := s.warpsOn core
  match lowestFree (here.filterMap fun e => e.2.port) 4, s.winner (here.filter fun e => s.isReady e.1 e.2) with
  | some port, some (w, x) =>
    let losers := (here.filter fun e => s.isReady e.1 e.2 && e.1 != w).map (·.1)
    let (r, s) := s.readySel w x
    let s := losers.foldl (fun s v => s.modWarp v fun y =>
      if y.fairAt = some s.clock then y else { y with fair := y.fair + 1, fairAt := some s.clock }) s
    match r with
    | none => s
    | some r => s.takePort w { x with fair := 0, readySince := none } port r
  | _, _ => s

end State

end Sys2Proof.Machine
end

