-- ==== Sys2Proof/Machine/CoreEvents.lean ====
section
/-! DEFINITION. Events of a core and its engines. An event whose condition does not hold changes nothing. -/

namespace Sys2Proof.Machine

namespace State

/-- The warps' stores acknowledged (R232): every lane has performed, and its local acknowledgements are in. -/
def writeAcknowledged (s : State) (w : WarpId) (id : Nat) : State :=
  match (s.warp? w).bind fun x => x.stores.find? fun o => o.id == id with
  | none => s
  | some o =>
    if o.todo != 0 then s
    else
      (s.modWarp w fun x => { x with stores := x.stores.map fun (k : StoreOp) =>
        if k.id = id then { k with acks := 0 } else k }).finishStore w id

/-- A dirty sector written back (R158), unless its page waits for a twin (R364). -/
def writebackSector (s : State) (c line key sector : Nat) : State :=
  match s.l1Find c line key with
  | none => s
  | some e =>
    if (e.dirty.any fun o => o / 32 == sector) && !s.writeHeld (e.line % 2 ^ 33 * 128) then
      s.l1Writeback c e fun k => k == sector
    else s

/-- Every clean global line of an L1 invalidated (R167). -/
def periodicInvalidate (s : State) (c : Nat) : State :=
  (s.l1InvalidateAll c).modCore c fun x => { x with lastInval := s.clock }

/-- A slice's overflow signature cleared 2^21 cycles after its last eviction (R167). -/
def clearOverflow (s : State) (slice : Nat) : State :=
  let st := amGet SigStore.empty s.mem.l2sig slice
  if st.lastEvict + 2 ^ 21 ≤ s.clock then
    s.setMem { s.mem with l2sig := amPut SigStore.empty s.mem.l2sig slice { st with ovf := 0, base := 0 } }
  else s

/-- The sectors of the L1s dirty for 65,536 cycles written back (R158). -/
def writebackDue (s : State) : State :=
  let sector := fun (c : Nat) (e : L1Line) (s : State) (k : Nat) =>
    if (amFind e.since k).any fun t => t + 65536 ≤ s.clock then s.writebackSector c e.line e.key k else s
  s.mem.cores.foldl (fun (s : State) q => q.2.l1.foldl (fun (s : State) e => [0, 1, 2, 3].foldl (sector q.1 e) s) s) s

/-- Whether the L1 of a core has not dropped its clean lines for 2^20 cycles (R167). -/
def invalDue (s : State) (x : CoreSt) : Bool := x.lastInval + 2 ^ 20 ≤ s.clock

/-- The clean lines of every L1 that has not dropped them for 2^20 cycles dropped, as row L1_PERIODIC_INVALIDATE does (R167). -/
def invalidateDue (s : State) : State :=
  let s := s.noFillIn fun c => (amFind s.mem.cores c).any fun x => s.invalDue x
  s.setMem { s.mem with cores := s.mem.cores.map fun q =>
    let x := q.2
    (q.1, { x with l1 := if s.invalDue x then withoutClean x.l1 fun _ => true else x.l1
                   lastInval := if s.invalDue x then s.clock else x.lastInval }) }

/-- The overflow signatures whose time has passed cleared, as row OVERFLOW_SIGNATURE_CLEAR does (R167). -/
def clearDue (s : State) : State :=
  let cleared := fun (st : SigStore) => { st with ovf := 0, base := 0 }
  let late := s.mem.l2sig.filterMap fun g =>
    if s.clock < g.2.lastEvict + 2 ^ 21 then some g
    else if cleared g.2 = SigStore.empty then none
    else some (g.1, cleared g.2)
  s.setMem { s.mem with l2sig := late }

/-- What is due by now happens (R158, R167). -/
def overdue (s : State) : State := s.writebackDue.invalidateDue.clearDue

/-- Whether a miss is still wanted: its team holds the cluster. -/
def missLive (s : State) (m : Miss) : Bool :=
  (s.team? m.team).any fun t => t.status == .placed || t.status == .yielding || t.status == .saving

/-- What waits for a page that has been served, replayed at once (R110): an instruction, a load, a store, a tile operation or a
copy of a warp. -/
def replay (s : State) (w : WarpId) (id : Nat) : State :=
  let head := ((s.warp? w).bind fun x => x.window.head?).any fun e => e.seq == id
  let s := if head then s.instructionRetire w else s.laneComplete w id allLanes
  let s := (s.bindLoad w id allLanes).performStore w id allLanes
  let s := match (s.warp? w).bind fun x => x.tileOps.find? fun o => o.id == id with
    | some o => s.tileExecute w o.tile
    | none => s
  s.copyTransfer w id

/-- The oldest miss of a cluster served (R110, R407): one that finds no frame stays the oldest. -/
def porterEvent (s : State) (cl : Nat) : State :=
  match amGet [] s.mem.misses cl with
  | [] => s
  | m :: l =>
    let rest := fun (s : State) => s.setMem { s.mem with misses := amPut [] s.mem.misses cl l }
    if !s.missLive m then rest s
    else
      match s.porterServe m.team m.page m.core with
      | (some s, _) => m.waits.foldl (fun (s : State) k => s.replay ⟨m.team, k.1⟩ k.2) (rest s)
      | (none, true) => s.slotsExhausted m.team
      | (none, false) => s

/-- An underflow report that reaches its warp (R414): merged into one not yet delivered, dropped where the warp has exited
or been saved. -/
def lawReport (s : State) (w : WarpId) (addr desc : Nat) : State :=
  s.modWarp w fun x =>
    if !x.lawDue.contains (addr, desc) then x
    else
      let x := { x with lawDue := x.lawDue.erase (addr, desc) }
      if x.status == .exited || x.status == .saved || x.lawLost.isSome then x else { x with lawLost := some (addr, desc) }

/-- A page of an armed set copied into a twin (R364): its leaf goes from TWIN 10 to 11. -/
def cowCopy (s : State) (p k : Nat) : State :=
  match (s.part p).snap.pages.find? fun g => g.k == k with
  | none => s
  | some g =>
    if (s.part p).snap.state ≠ 2 || g.drained || g.early || g.twin.isSome then s
    else
      match s.takeTwin p with
      | none => s
      | some (f, s) =>
        let (e, s) := s.readPte g.eaddr
        let s := (s.copyFrame g.frame f g.key []).rewriteLeaf g.eaddr (pteSetTwin e 3)
        s.modPart p fun x =>
          let pages := x.snap.pages.map fun (q : SnPage) => if q.k = k then { q with twin := some f, order := x.snap.twins } else q
          { x with snap := { x.snap with pages := pages, twins := x.snap.twins + 1 } }

/-- A fill that arrives at a slice which has lost its line's home since it was sent: discarded, and what waits for it routed
again, to the home of now (R348). -/
def fillReroute (s : State) (k : Nat) : State :=
  match s.mem.fills[k]? with
  | none => s
  | some f =>
    let home := s.mem.l2Home (f.line * 128)
    if home = f.slice && !f.lost then s
    else s.setMem { s.mem with fills := s.mem.fills.set k { f with slice := home, lost := false } }

end State

/-- `CLAUSE_DISPATCH` (R54, R63 to R65, R223 to R226). -/
def execClauseDispatch (core : Nat) (s : State) : Host.Outcome State Fault Refusal := .next (s.clauseDispatch core)

/-- `LANE_COMPLETE` (R69 to R74): the instruction that completes, by its number, and the lanes in which it does. -/
def execLaneComplete (w : WarpId) (k : Nat × Mask) (s : State) : Host.Outcome State Fault Refusal :=
  .next (s.laneComplete w k.1 k.2)

/-- `INSTRUCTION_RETIRE` (R70, R71, R368). -/
def execInstructionRetire (w : WarpId) (s : State) : Host.Outcome State Fault Refusal := .next (s.instructionRetire w)

/-- `LOAD_BIND` (R73, R74). -/
def execLoadBind (w : WarpId) (id : Nat) (m : Mask) (s : State) : Host.Outcome State Fault Refusal := .next (s.bindLoad w id m)

/-- `STORE_PERFORM` (R75). -/
def execStorePerform (w : WarpId) (id : Nat) (m : Mask) (s : State) : Host.Outcome State Fault Refusal :=
  .next (s.performStore w id m)

/-- `WRITE_ACKNOWLEDGED` (R232). -/
def execWriteAcknowledged (w : WarpId) (id : Nat) (s : State) : Host.Outcome State Fault Refusal :=
  .next (s.writeAcknowledged w id)

/-- `L1_WRITEBACK_TIMER` (R158). -/
def execL1WritebackTimer (core line key sector : Nat) (s : State) : Host.Outcome State Fault Refusal :=
  .next (s.writebackSector core line key sector)

/-- `L1_PERIODIC_INVALIDATE` (R167). -/
def execL1PeriodicInvalidate (core : Nat) (s : State) : Host.Outcome State Fault Refusal := .next (s.periodicInvalidate core)

/-- `OVERFLOW_SIGNATURE_CLEAR` (R167). -/
def execOverflowSignatureClear (slice : Nat) (s : State) : Host.Outcome State Fault Refusal := .next (s.clearOverflow slice)

/-- `PORTER_SERVE` (R110, R111, R407). -/
def execPorterServe (cluster : Nat) (s : State) : Host.Outcome State Fault Refusal := .next (s.porterEvent cluster)

/-- `COPY_TRANSFER` (R303, R304). -/
def execCopyTransfer (w : WarpId) (id : Nat) (s : State) : Host.Outcome State Fault Refusal := .next (s.copyTransfer w id)

/-- `COPY_LAND` (R303, R304). -/
def execCopyLand (w : WarpId) (id : Nat) (s : State) : Host.Outcome State Fault Refusal := .next (s.copyLand w id)

/-- `BATCH_FINISH` (R305). -/
def execBatchFinish (w : WarpId) (serial : Nat) (s : State) : Host.Outcome State Fault Refusal := .next (s.batchFinish w serial)

/-- `TILE_OP_EXECUTE` (R326 to R328). -/
def execTileOpExecute (w : WarpId) (tile : Nat) (s : State) : Host.Outcome State Fault Refusal := .next (s.tileExecute w tile)

/-- `WEIGHER_UPDATE` (R135, R333 to R336). -/
def execWeigherUpdate (w : WarpId) (id lane : Nat) (s : State) : Host.Outcome State Fault Refusal :=
  .next (s.weigherUpdate w id lane)

/-- `MERGE_UNIT` (R146, R311). -/
def execMergeUnit (w : WarpId) (id unit : Nat) (s : State) : Host.Outcome State Fault Refusal := .next (s.mergeUnit w id unit)

/-- `REGION_PUBLISH` (R148, R149, R338). -/
def execRegionPublish (w : WarpId) (id : Nat) (s : State) : Host.Outcome State Fault Refusal := .next (s.regionPublish w id)

/-- `LAW_LOST_REPORT` (R414). -/
def execLawLostReport (w : WarpId) (addr desc : Nat) (s : State) : Host.Outcome State Fault Refusal :=
  .next (s.lawReport w addr desc)

/-- `COW_TWIN_COPY` (R364). -/
def execCowTwinCopy (part page : Nat) (s : State) : Host.Outcome State Fault Refusal := .next (s.cowCopy part page)

/-- `FILL_REROUTE` (R348). -/
def execFillReroute (k : Nat) (s : State) : Host.Outcome State Fault Refusal := .next (s.fillReroute k)

end Sys2Proof.Machine
end

