-- ==== Sys2Proof/Machine/Blocks.lean ====
section
/-! DEFINITION. The save area (R98, R99, R372, R380): team blocks and warp blocks as bytes, written at a save and read at a
placement. -/

namespace Sys2Proof.Machine

/-! ### Small pieces -/

/-- A number rounded up to a multiple of 64. -/
def up64 (n : Nat) : Nat := (n + 63) / 64 * 64

/-- Bytes with zeros to the next 64-byte boundary. -/
def pad64 (l : List Byte) : List Byte := l ++ List.replicate (up64 l.length - l.length) 0

/-- The tag codes of n registers, two bits each (Tables 5-6 and R99). -/
def tagBytes (l : List Nat) : List Byte :=
  (List.range ((l.length + 3) / 4)).map fun k =>
    BitVec.ofNat 8 (l.getD (4 * k) 0 + 4 * l.getD (4 * k + 1) 0 + 16 * l.getD (4 * k + 2) 0 + 64 * l.getD (4 * k + 3) 0)

/-- The words that a register of a tag occupies (R76, R99). -/
def regWords (r : VReg) : List Word :=
  match r.tag with
  | .uniform => [r.at 0]
  | .affine => [r.at 0, r.stride]
  | .general => lanes.map r.at

/-- The words of registers in tag order: the uniform ones, the affine ones, the general ones. -/
def groupWords (l : List VReg) : List Byte :=
  let of := fun (t : Tag) => (l.filter fun r => r.tag == t).flatMap regWords
  (of .uniform ++ of .affine ++ of .general).flatMap fun w => leBytes 4 w.toNat

/-- A frontier entry (FRONT). -/
def entryBytes (e : FEntry) : List Byte := leBytes 8 e.addr ++ leBytes 4 e.mask.toNat ++ leBytes 1 e.prio ++ leBytes 3 e.passes

/-- An empty entry of FRONT. -/
def FEntry.empty : FEntry := { addr := 0, mask := 0, prio := 0, passes := 0, rejoin := false }

/-- A scratch table entry (Table 6-2), and the entry of a word. -/
def SttE.word (e : SttE) : Nat :=
  2 ^ 20 * (e.slot % 2 ^ 24) + 2 ^ 13 * bit e.hass + 2 ^ 12 * bit e.used + 2 ^ 10 * (e.own % 4) + 4 * (e.frame % 256) +
    2 * bit e.dirty + bit e.res
def SttE.ofWord (x : Nat) : SttE :=
  { slot := field x 20 24, hass := field x 13 1 == 1, used := field x 12 1 == 1, own := field x 10 2, frame := field x 2 8,
    dirty := field x 1 1 == 1, res := field x 0 1 == 1 }

/-- A barrier (Table 12-2), and the barrier of a word; what a resumed team's barrier holds matches every line (R168). -/
def Bar.word (b : Bar) : Nat := b.phase % 2 + 2 * (b.arr % 128) + 2 ^ 8 * (b.exp % 128)
def Bar.ofWord (x : Nat) : Bar :=
  { exp := field x 8 7, arr := field x 1 7, phase := field x 0 1, sig := sigOnes, lastSig := sigOnes }

/-- A ring stage (RINGS), and the stage of a byte. -/
def Stage.byte (g : Stage) : Nat := bit g.full + 2 * (g.phase % 2) + 4 * (g.rcnt % 64)
def Stage.ofByte (x : Nat) : Stage :=
  { full := field x 0 1 == 1, phase := field x 1 1, rcnt := field x 2 6, sig := sigOnes, waiters := [] }

/-- The trap record of 64 bytes (Table 23-3). -/
def TrapRec.ofBytes (l : List Byte) : TrapRec :=
  let f := bytesNat l 4 4
  { code := bytesNat l 0 1, arg := bytesNat l 1 1, sub := bytesNat l 2 1, skid := bytesNat l 3 1
    halt := field f 0 1 == 1, addrv := field f 1 1 == 1, savef := field f 2 1 == 1, nest := field f 3 1 == 1
    hdr := field f 4 1 == 1, lane := field f 5 5, widx := field f 10 6, pcore := field f 23 9
    pc := bytesNat l 8 8, insn := BitVec.ofNat 64 (bytesNat l 16 8), mask := BitVec.ofNat 32 (bytesNat l 24 4)
    resume := BitVec.ofNat 32 (bytesNat l 28 4), addr := bytesNat l 32 8, clk := bytesNat l 40 8, aux := bytesNat l 48 8
    live := BitVec.ofNat 32 (bytesNat l 60 4), owner := none }

/-! ### Writing -/

/-- WHDR (Table 5-7). -/
def whdr (widx : Nat) (x : Warp) (nfr : Nat) : Nat :=
  widx % 64 + 2 ^ 8 * (x.role % 4) + 2 ^ 12 * (x.g % 32) + 2 ^ 17 * (x.atl % 32) + 2 ^ 22 * bit x.park.isSome +
    2 ^ 23 * bit x.handler.isSome + 2 ^ 24 * bit (x.status != .yielded) + 2 ^ 25 * bit (x.status == .exited) + 2 ^ 26 * (nfr % 64)

/-- The frontier that a block holds: a handler's own entry comes first, empty while its lanes are inside a clause (R372). -/
def frontOf (x : Warp) : List FEntry :=
  match x.handler with
  | none => x.fr
  | some h => x.fr.headD FEntry.empty :: h.frozen

/-- RESPC, RLIVE and RMASK. -/
def respOf (x : Warp) : Nat × Mask × Mask :=
  match x.cursor with
  | some c => (c.pc, c.live, c.rmask)
  | none => (((selectEntry x.fr).map FEntry.addr).getD 0, 0, 0)

/-- The block of a warp (R99, Table 5-6). -/
def warpBlock (widx : Nat) (x : Warp) : List Byte :=
  if x.status = .exited then pad64 (leBytes 8 (2 ^ 25 + whdr widx { x with status := .yielded, park := none, handler := none } 0))
  else
    let fr := frontOf x
    let (pc, live, rm) := respOf x
    let regs := (List.range (32 * x.g)).map fun n => x.reg n
    let hregs := (List.range 32).map fun n => x.reg (960 + n)
    pad64 (leBytes 8 (whdr widx x fr.length) ++ leBytes 8 pc ++ leBytes 4 live.toNat ++ leBytes 4 rm.toNat ++
      leBytes 1 x.ctr.ld ++ leBytes 1 x.ctr.st ++ leBytes 1 x.ctr.cb ++ leBytes 1 x.ctr.tl ++ leBytes 4 x.ctr.sk ++
      ((fr ++ List.replicate 32 FEntry.empty).take 32).flatMap entryBytes ++
      (List.range 48).flatMap (fun n => leBytes 4 (x.pred n).toNat) ++
      tagBytes ((List.range 768).map fun n => if n < 32 * x.g then (x.reg n).tag.code else 3) ++
      List.replicate 32 0 ++ groupWords regs ++
      (match x.handler with
       | none => []
       | some h => tagBytes (hregs.map fun r => r.tag.code) ++ groupWords hregs ++ h.trec.bytes true))

namespace State

/-- The tiles that the warps of a team hold, in warp and then tile order. -/
def savedTiles (x : Warp) : List Byte :=
  (List.range x.atl).flatMap fun t => (List.range 32).flatMap fun i => (List.range 64).flatMap fun j =>
    leBytes 4 (tileAt x t i j).toNat

/-- The block of a team without its warp blocks (Table 5-5). -/
def teamBlock (s : State) (t : Nat) (tm : Team) : List Byte :=
  leBytes 8 (tm.nwarps + 128 * bit tm.forced) ++ leBytes 8 tm.tdl ++ tm.bars.flatMap (fun b => leBytes 8 b.word) ++
    (tm.rings.flatMap fun r => (List.range 16).flatMap fun k => leBytes 1 ((r[k]?.map Stage.byte).getD 0)) ++
    (List.range 1024).flatMap (fun p => leBytes 8 (s.stt t p).word) ++ List.replicate 48 0 ++
    (s.warpsOf t).flatMap fun e => savedTiles e.2

/-- The team block and the warp blocks of a team. -/
def allBlocks (s : State) (t : Nat) (tm : Team) : List Byte :=
  pad64 (s.teamBlock t tm) ++ (s.warpsOf t).flatMap fun e => warpBlock e.1.widx e.2

end State

/-! ### Reading (R380) -/

/-- A warp as its block gives it. -/
structure WBlock where
  hdr : Nat
  pc : Nat
  live : Mask
  rmask : Mask
  fr : List FEntry
  preds : AMap Mask
  regs : AMap VReg
  hregs : AMap VReg
  trec : TrapRec
  size : Nat
  bad : Bool
  deriving DecidableEq, Repr

def WBlock.g (b : WBlock) : Nat := field b.hdr 12 5
def WBlock.exited (b : WBlock) : Bool := field b.hdr 25 1 == 1

/-- An affine register of a base and a stride (R76). -/
def affineReg (b st : Word) : VReg := { tag := .affine, words := lanes.map fun i => b + BitVec.ofNat 32 i * st }

/-- Registers of listed tags from the words that follow in tag order, and how many bytes those take. -/
def groupRegs (tags : List Nat) (l : List Byte) : List VReg × Nat :=
  let nu := (tags.filter fun t => t == 0).length
  let na := (tags.filter fun t => t == 1).length
  let ng := (tags.filter fun t => t == 2).length
  let word := fun k => (BitVec.ofNat 32 (bytesNat l (4 * k) 4) : Word)
  let rank := fun k c => ((tags.take k).filter fun t => t == c).length
  ((List.range tags.length).map fun k =>
    match tags.getD k 0 with
    | 0 => uniformReg (word (rank k 0))
    | 1 => affineReg (word (nu + 2 * rank k 1)) (word (nu + 2 * rank k 1 + 1))
    | 2 => { tag := .general, words := lanes.map fun i => word (nu + 2 * na + 32 * rank k 2 + i) }
    | _ => zeroReg, 4 * (nu + 2 * na + 32 * ng))

/-- A list of registers as a register map. -/
def regMap (l : List VReg) : AMap VReg :=
  (l.zip (List.range l.length)).foldl (fun (m : AMap VReg) (p : VReg × Nat) => amPut zeroReg m p.2 p.1) []

/-- The tag code of the n-th register of a list of tag bytes. -/
def tagOf (l : List Byte) (off n : Nat) : Nat := field (bytesNat l (off + n / 4) 1) (2 * (n % 4)) 2

/-- Whether lane masks are disjoint. -/
def disjoint (l : List Mask) : Bool :=
  (l.foldl (fun (a : Bool × Mask) m => (a.1 && (a.2 &&& m) == 0, a.2 ||| m)) (true, 0)).1

/-- A warp block read from the bytes that begin with it, for a warp of a role and tile grant (R380). -/
def readWarpBlock (role atl : Nat) (l : List Byte) : WBlock :=
  let h := bytesNat l 0 8
  let g := field h 12 5
  let hdrBad := field h 8 2 != role || g < 1 || g > 24 || field h 17 5 != atl || field h 26 6 > 32 || field h 6 2 != 0 ||
    field h 10 2 != 0 || field h 32 32 != 0
  if field h 25 1 = 1 then
    { hdr := h, pc := 0, live := 0, rmask := 0, fr := [], preds := [], regs := [], hregs := [], trec := TrapRec.zero, size := 64,
      bad := hdrBad }
  else
    let msk := fun off => (BitVec.ofNat 32 (bytesNat l off 4) : Mask)
    let nfr := field h 26 6
    let fr := (List.range (min nfr 32)).map fun k =>
      { addr := bytesNat l (0x20 + 16 * k) 8, mask := msk (0x28 + 16 * k), prio := bytesNat l (0x2C + 16 * k) 1,
        passes := bytesNat l (0x2D + 16 * k) 1, rejoin := false : FEntry }
    let tags := (List.range (32 * g)).map fun n => tagOf l 0x2E0 n
    let (regs, n) := groupRegs tags (l.drop 0x3C0)
    let hnd := field h 23 1 == 1
    let htags := (List.range 32).map fun k => tagOf l (0x3C0 + n) k
    let (hregs, hn) := groupRegs htags (l.drop (0x3C8 + n))
    let preds := (List.range 48).foldl (fun (m : AMap Mask) k => amPut 0 m k (msk (0x220 + 4 * k))) []
    { hdr := h, pc := bytesNat l 8 8, live := msk 0x10, rmask := msk 0x14, fr := fr, preds := preds, regs := regMap regs
      hregs := if hnd then regMap hregs else []
      trec := if hnd then TrapRec.ofBytes (l.drop (0x3C8 + n + hn)) else TrapRec.zero
      size := up64 (0x3C0 + n + if hnd then 8 + hn + 64 else 0)
      bad := hdrBad || !disjoint (fr.map FEntry.mask) || tags.contains 3 || bytesNat l 0x1D 3 != 0 ||
        bytesNat l 0x3A0 32 != 0 || ((List.range 32).any fun k => bytesNat l (0x2E + 16 * k) 2 != 0) ||
        (hnd && (field (bytesNat l (0x3CC + n + hn) 4) 16 7 != 0 || bytesNat l (0x400 + n + hn) 4 != 0)) }

/-- Whether the team block breaks a check of R380. -/
def teamBlockBad (warps : Nat) (l : List Byte) : Bool :=
  bytesNat l 0 8 / 256 != 0 || bytesNat l 0 8 % 128 != warps ||
  ((List.range 16).any fun k => bytesNat l (0x10 + 8 * k) 8 / 2 ^ 15 != 0) ||
  ((List.range 1024).any fun k => let x := bytesNat l (0x110 + 8 * k) 8; field x 14 6 != 0 || x / 2 ^ 44 != 0) ||
  bytesNat l 0x2110 48 != 0

end Sys2Proof.Machine
end

