-- ==== Sys2Proof/Machine/Saves.lean ====
section
/-! DEFINITION. Pre-emption, forced stops, saves, halts and what a context holds (R94 to R98, R356, R357, R372, R375 to
R379). -/

namespace Sys2Proof.Machine

/-- Whether a team holds its cluster. -/
def TStatus.onCluster : TStatus → Bool
  | .placed => true
  | .yielding => true
  | .saving => true
  | .pending => false
  | .exited => false

/-- A queue without the records of a context. -/
def Queue.without (q : Queue) (c : Nat) : Queue :=
  { q with dev := q.dev.filter fun r => r.ctx != c, hostCopied := q.hostCopied.filter fun r => r.ctx != c }

/-- Instructions that wait for something outside their warp (R375). -/
def waitsForOthers : Instr → Bool
  | .rput _ _ _ => true
  | .rget _ _ _ _ => true
  | .rrel _ _ _ => true
  | .bara _ _ _ _ => true
  | .barw _ _ _ => true
  | .bars _ _ _ => true
  | .wait _ _ _ => true
  | .lwait _ _ _ _ => true
  | .reggrow _ _ _ _ => true
  | _ => false

namespace State

/-! ### Stopping a warp where it stands (R96) -/

/-- The lanes of an unretired instruction that have completed, and left something behind. -/
def didLanes (x : Warp) (e : WEntry) : Mask :=
  ((x.loads.find? fun l => l.id == e.seq && !l.retired).map LoadOp.need).getD 0 |||
  ((x.stores.find? fun o => o.id == e.seq).map fun o => maskOf fun i => o.accs.any fun q => q.acc.lane == i).getD 0 |||
  ((x.skOps.find? fun o => o.id == e.seq && !o.retired).map fun o => maskOf fun i => o.lanes.any fun q => q.lane == i).getD 0 |||
  (match e.instr with
   | .launch _ _ _ => maskOf fun i => x.stage.contains i
   | _ => 0)

/-- The results of the lanes of the oldest instruction that have completed, written under those lanes (R71, R72). -/
def commitLanes (x : Warp) (e : WEntry) : Warp :=
  match e.result with
  | .alu rs ps =>
    let on := e.mask &&& x.guardMask (guardOf e.instr) &&& ~~~e.left
    let x := rs.foldl (fun (x : Warp) r => x.writeReg r.1 on r.2.tag fun i => r.2.at i) x
    ps.foldl (fun (x : Warp) p => x.writePred p.1 on fun i => p.2.getLsbD i) x
  | _ => x

/-- An arrival of an instruction that is discarded is taken back while its phase lasts, and the warp no longer waits at a
ring stage or for registers. -/
def unwait (s : State) (w : WarpId) (x : Warp) (e : WEntry) : State :=
  let s := match e.instr, x.stage with
    | .bars _ _ b, ph :: _ => s.modTeam w.team fun t =>
        { t with bars := t.bars.mapIdx fun k (r : Bar) => if k = b && r.phase = ph then { r with arr := r.arr - 1, exp := if r.arr ≤ 1 then 0 else r.exp } else r }
    | _, _ => s
  let s := s.modTeam w.team fun t =>
    { t with rings := t.rings.map fun l => l.map fun (g : Stage) => { g with waiters := g.waiters.filter fun v => v != w.widx } }
  s.modCore x.core fun c => { c with grow := c.grow.filter fun v => v != w }

/-- The completed part of the oldest instruction committed and everything younger discarded: the warp stands at the
first lane that has still to act. -/
def stopWindow (s : State) (w : WarpId) : State :=
  match s.warp? w with
  | none => s
  | some x =>
    match x.window with
    | [] => s
    | e :: l =>
      let s := s.unwait w x e
      let s := s.inboxDrop w e.seq
      if e.result != .none && e.left != 0 then
        s.modWarp w fun y =>
          let on := e.mask &&& y.guardMask (guardOf e.instr) &&& ~~~e.left
          { (commitLanes y e).discard countersOf with
            fr := e.frontier, cursor := some { e.cursor with rmask := e.cursor.rmask &&& ~~~on } }
      else if e.result != .none then
        let s := s.retireHead w fun _ => none
        match l with
        | [] => s
        | f :: _ => s.modWarp w fun y => { y.discard countersOf with fr := f.frontier, cursor := some f.cursor }
      else
        let did := didLanes x e
        if did = 0 then s.modWarp w fun y => { y.discard countersOf with fr := e.frontier, cursor := some e.cursor }
        else
          s.modWarp w fun y =>
            let y := settle y e.seq
            { ({ y with window := l }).discard countersOf with
              fr := e.frontier, cursor := some { e.cursor with rmask := e.cursor.rmask &&& ~~~did } }

/-- A warp stopped by a forced save (R96, R372): it dispatches nothing more; one that still waits for a handler bank is
back at its trapped instruction, a `TRAP` or `BRK` in every lane again (R375). -/
def stopWarp (s : State) (w : WarpId) : State :=
  match s.warp? w with
  | none => s
  | some x =>
    let early := (x.handler.map fun h => h.bank.isNone && !h.started).getD false
    let s := if early then
        (s.returnTrap w false).modWarp w fun y => { y with cursor := y.cursor.map fun c => { c with
          rmask := if c.rmask = 0 then ((x.handler.map fun h => h.trec.mask).getD 0) else c.rmask } }
      else s
    ((s.stopWindow w).modWarp w fun x => { x with port := none, refused := [], lostWords := [] }).growLeave x.core w

/-- Whether a forced save stops a warp: it has neither yielded nor exited (R96). -/
def stopsAt (x : Warp) : Bool := !(x.status == .exited || x.status == .yielded || x.status == .saved)

/-- Every warp of a team that has not yielded or exited stopped, and the team saved (R96): its countdown stands at zero, and
the save is a forced one where it stopped a warp. A team whose warps have all exited is never saved (R93). -/
def forceSave (s : State) (t : Nat) : State :=
  let ws := s.warpsOf t
  if ws.all fun e => e.2.status == .exited then s
  else
    let s := ws.foldl (fun (s : State) (e : WarpId × Warp) => if stopsAt e.2 then s.stopWarp e.1 else s) s
    s.modTeam t fun tm => { tm with
      status := .saving, forced := tm.forced || ws.any fun e => stopsAt e.2, deadline := none, tdl := 0 }

/-- Row DEADLINE_EXPIRE. -/
def deadlineExpire (s : State) (t : Nat) : State :=
  match s.team? t with
  | none => s
  | some tm =>
    if tm.status = .yielding && (tm.deadline.map fun d => decide (d ≤ s.clock)).getD false then s.forceSave t else s

/-! ### SAVED and what follows it (R357) -/

/-- Whether a context reads SAVED = 1. -/
def saved (s : State) (c : Nat) : Bool := (s.teamsOf c).all fun t => !t.2.status.onCluster

/-- The request bit of a context cleared (R100): a failed context stays as it is (R379, R411). -/
def resume (s : State) (c : Nat) : State :=
  s.modCtx c fun x => if x.failed then { x with heldResume := false } else { x with preq := false, heldResume := false }

/-- A held write of PREQ = 0 takes effect once the context is saved. -/
def afterSave (s : State) (c : Nat) : State := if (s.ctx c).heldResume && s.saved c then s.resume c else s

/-- Row CONTEXT_RESUME: a write of PREQ = 0. -/
def contextResume (s : State) (c : Nat) : State :=
  if !(s.ctx c).preq then s
  else if s.saved c then s.resume c
  else s.modCtx c fun x => { x with heldResume := true }

/-! ### Saving a team (R97, R98) -/

/-- Whether a warp of a team in SAVING has nothing left that must run to completion (steps 1 and 2 of R97). -/
def drained (s : State) (w : WarpId) (x : Warp) : Bool :=
  x.window.isEmpty && x.loads.isEmpty && x.stores.isEmpty && x.tileOps.isEmpty && x.skOps.isEmpty && x.copies.isEmpty &&
    x.batches.isEmpty && x.openBatch.isEmpty && !s.flushHeld x.core &&
    !(s.fab.reqs.any fun r => ownerWarp r.owner == some w && countedWrite r.kind)

/-- The record of R407 for a save that waits for a backing slot, once. -/
def saveWait (s : State) (t : Nat) (tm : Team) : State :=
  if tm.saveWaited then s
  else
    let s := s.setTeam t { tm with saveWaited := true }
    match s.gridOf? t with
    | none => s
    | some (_, g) => s.postEvent g.ctx { TrapRec.zero with code := 0x14, sub := 0x30, addr := g.recAddr, aux := tm.idx }

/-- The resident dirty pages of a team written to their slots in ascending page order (step 3 of R97, R426); none for the
pages that wait for a slot. -/
def writeOut (s : State) (t : Nat) : Bool × State :=
  let dirty := (((s.team? t).map Team.stt).getD []).filter fun e => e.2.res && e.2.dirty
  dirty.foldl (fun (acc : Bool × State) e =>
    if !acc.1 then acc
    else
      match acc.2.takeSlot t e.1 with
      | none => (false, acc.2)
      | some s =>
        let s := s.writePage t e.1
        (true, s.setStt t e.1 { s.stt t e.1 with dirty := false })) (true, s)

/-- Every frame of a team free, and its queued misses forgotten. -/
def freeFrames (s : State) (t : Nat) : State :=
  let s := ((((s.team? t).map Team.stt).getD []).filter fun e => e.2.res).foldl (fun (s : State) e => s.dropPage t e.1) s
  s.setMem { s.mem with misses := s.mem.misses.filterMap fun c =>
    let l := c.2.filter fun (m : Miss) => m.team != t
    if l.isEmpty then none else some (c.1, l) }

/-- Whether a range of physical memory lies in stacks that a partition owns (R379). -/
def inStacks (s : State) (p a n : Nat) : Bool :=
  n = 0 || ((a + n - 1) / 2 ^ 36 < Config.stackCount &&
    (List.range Config.stackCount).all fun k => k < a / 2 ^ 36 || (a + n - 1) / 2 ^ 36 < k || field (s.part p).stackMask k 1 == 1)

/-- The teams of a context that are saved now, in directory order (R98): record address, then linear index. -/
def savedTeams (s : State) (c : Nat) : List (Nat × Team) :=
  let key := fun (e : Nat × Team) => (((s.grid? e.2.grid).map Grid.recAddr).getD 0, e.2.idx)
  let insert := fun (l : List (Nat × Team)) (e : Nat × Team) =>
    let before := fun (d : Nat × Team) => (key d).1 < (key e).1 || ((key d).1 = (key e).1 && (key d).2 ≤ (key e).2)
    l.takeWhile before ++ [e] ++ l.dropWhile before
  ((s.teamsOf c).filter fun e => e.2.status == .pending && e.2.savePhase == 1).foldl insert []

/-- Where the blocks of each saved team lie: number, offset of its team block, bytes. -/
def layout (start : Nat) (l : List (Nat × Nat)) : List (Nat × Nat × Nat) :=
  (l.foldl (fun (a : List (Nat × Nat × Nat) × Nat) (e : Nat × Nat) => (a.1 ++ [(e.1, a.2, e.2)], a.2 + e.2)) ([], start)).1

/-- The blocks of a team's save put into the save area with those of the teams saved earlier, and the directory
rewritten. None where an address lies outside the partition's stacks (R379). -/
def writeArea (s : State) (t : Nat) (tm : Team) : Option State :=
  match s.gridOf? t with
  | none => none
  | some (_, g) =>
    let base := (s.ctx g.ctx).save
    let bytes := s.allBlocks t tm
    let old := s.savedTeams g.ctx
    let held := old.foldl (fun (acc : List (Nat × List Byte) × State) e =>
      let (bs, s) := acc.2.devRead (base + e.2.blockOff) e.2.blockLen
      (acc.1 ++ [(e.1, bs)], s)) ([], s)
    let s := held.2.setTeam t { tm with status := .pending, savePhase := 1, blockLen := bytes.length }
    let all := s.savedTeams g.ctx
    let at' := layout (up64 (0x40 + 32 * all.length)) (all.map fun e => (e.1, e.2.blockLen))
    let stop := (at'.map fun e => e.2.1 + e.2.2).foldl max (0x40 + 32 * all.length)
    if !s.inStacks g.part base stop then none
    else
      let dir := all.flatMap fun e =>
        leBytes 8 (((s.grid? e.2.grid).map Grid.recAddr).getD 0) ++ leBytes 8 e.2.idx ++
          leBytes 8 (((at'.find? fun a => a.1 == e.1).map fun a => a.2.1).getD 0) ++ leBytes 8 e.2.blockLen
      let s := (s.devWrite base (leBytes 4 all.length)).devWrite (base + 0x40) dir
      some (at'.foldl (fun (s : State) a =>
        let bs := if a.1 = t then bytes else ((held.1.find? fun h => h.1 == a.1).map (·.2)).getD []
        (s.devWrite (base + a.2.1) bs).modTeam a.1 fun tm => { tm with blockOff := a.2.1 }) s)

/-- The watchdog's count of a warp (R378): cycles since it last retired, as held while it has yielded, is parked or waits for
a bank. -/
def wdCount (now : Nat) (x : Warp) : Nat :=
  match x.wdHeld with
  | some n => n
  | none =>
    if x.park.isSome then x.lastRetire
    else if waitsBank x then (x.handler.map fun h => h.since - x.lastRetire).getD 0
    else now - x.lastRetire

/-- A team leaves its cluster: its warps are saved, their handler banks free. -/
def leaveCluster (s : State) (t : Nat) : State :=
  (s.warpsOf t).foldl (fun (s : State) (e : WarpId × Warp) =>
    if e.2.status = .exited then s
    else
      let s := s.modCore e.2.core fun c =>
        { c with banks := c.banks.map fun b => if b = some e.1 then none else b, grow := c.grow.filter fun v => v != e.1 }
      let s := if s.cur = some e.1 then s.setCur none else s
      s.setWarp e.1 { e.2 with
        status := .saved, port := none, lawDue := [], lawLost := none, wdHeld := some (wdCount s.clock e.2) }) s

/-- The lowest team of a grid counts decisions afresh when a saved team takes its place (R91). -/
def recount (s : State) (gi idx : Nat) : State :=
  s.modGrid gi fun g =>
    let lower := s.teams.any fun t => t.2.grid == gi && t.2.status == .pending && t.2.savePhase == 1 && t.2.idx < idx
    if lower then g else { g with decisions := 0 }

/-- A save that cannot be written (R379): the team's resources are free, the context has failed. -/
def saveFails (s : State) (t : Nat) : State :=
  match s.team? t, s.gridOf? t with
  | some tm, some (_, g) =>
    let s := (s.leaveCluster t).setTeam t { tm with status := .pending, savePhase := 2 }
    let s := s.modCtx g.ctx fun x => { x with failed := true }
    (s.postEvent g.ctx { TrapRec.zero with code := 0x42, savef := true, sub := 0x01, addr := g.recAddr, aux := tm.idx }).afterSave g.ctx
  | _, _ => s

/-- Row TEAM_SAVE: the steps of R97 as far as they can go now. -/
def teamSave (s : State) (t : Nat) : State :=
  match s.team? t with
  | none => s
  | some tm =>
    let ws := s.warpsOf t
    if tm.status = .yielding then
      if (ws.all fun e => e.2.status == .yielded || e.2.status == .exited) && ws.any fun e => e.2.status == .yielded then
        s.setTeam t { tm with status := .saving, deadline := none, tdl := (tm.deadline.getD s.clock) - s.clock }
      else s
    else if tm.status ≠ .saving || tm.halted.isSome then s
    else
      let s := ws.foldl (fun (s : State) (e : WarpId × Warp) => if e.2.ctr.cb < 255 then s.sealBatch e.1 else s) s
      if !((s.warpsOf t).all fun e => s.drained e.1 e.2) then s
      else
        match s.writeOut t with
        | (false, s) => s.saveWait t ((s.team? t).getD tm)
        | (true, s) =>
          let s := s.freeFrames t
          let s := ws.foldl (fun (s : State) (e : WarpId × Warp) => (s.l1Flush e.2.core).closeStreams e.1) s
          let tm := (s.team? t).getD tm
          match s.writeArea t tm with
          | none => s.saveFails t
          | some s => ((s.leaveCluster t).recount tm.grid tm.idx).afterSave (s.ctxOf t)

/-! ### Team halts (R375, R376) -/

/-- The next instruction of a clause that a port held for want of window entries as a halt arrived, dispatched (R375): the
state after it, the code of a fault that it meets once the window has drained, or neither while it waits. -/
def dispatchHeld (s : State) (w : WarpId) (x : Warp) : Option (Nat ⊕ State) :=
  match x.port, x.cursor with
  | some _, some c =>
    match (if c.live = 0 then none else c.words.head?).map decode with
    | none => none
    | some (.error e) =>
      if !x.window.isEmpty then none
      else some (.inl (match e with | .illegalOpcode _ => 0x01 | .illegalOperand _ => 0x03))
    | some (.ok i) =>
      match dispatchAny i ((s.modWarp w fun y => { y with halt := none }).setCur (some w)) with
      | .next s' =>
        match s'.warp? w with
        | none => none
        | some y =>
          if y.halt.isSome || (y.status == .handler && x.status != .handler) then
            some (.inl ((y.halt.map TrapRec.aux).getD ((y.handler.map fun h => h.trec.code).getD 0)))
          else if y.seq = x.seq then none
          else some (.inr ((s'.setCur s.cur).modWarp w fun y => { y with halt := x.halt }))
      | _ => none
  | _, _ => none

/-- What a warp does once a halt has reached it: it retires what it has dispatched, as far as that completes without another
warp. The number retired, the code of a fault that ended it, whether it may still retire more, and the state. -/
def skid (w : WarpId) : Nat → State → Nat → Nat × Option Nat × Bool × State
  | 0, s, n => (n, none, false, s)
  | fuel + 1, s, n =>
    match s.warp? w with
    | none => (n, none, false, s)
    | some x =>
      match s.dispatchHeld w x with
      | some (.inr s) => skid w fuel s (n + ((s.warp? w).map fun y => x.window.length + 1 - y.window.length).getD 0)
      | some (.inl code) => (n, some code, false, s)
      | none =>
        match x.window with
        | [] => (n, none, false, s)
        | e :: _ =>
          let others := waitsForOthers e.instr
          if e.result != .none then skid w fuel (s.retireHead w fun _ => none) (n + 1)
          else if !s.opsReady w x [] e.instr e.mask then (n, none, true, s)
          else
            match headBody e.instr with
            | none => (n, none, false, s)
            | some b =>
              let m := e.mask &&& x.guardMask (guardOf e.instr)
              if m = 0 then skid w fuel ((s.uncount w e.instr).leave w) (n + 1)
              else
                match b w e m s with
                | .done s => skid w fuel (s.retire w e) (n + 1)
                | .wait s => (n, none, !others, s)
                | .trap _ t _ => (n, some t.code, false, s)
                | .park _ _ _ _ => (n, none, false, s)

/-- The halt received by a warp (R375): it stops dispatching. A warp that waits for a handler bank no longer waits, and its
record names the fault that it meant to handle. -/
def haltReceive (s : State) (cause : Nat) (w : WarpId) : State :=
  s.modWarp w fun x =>
    match x.halt with
    | some _ => x
    | none =>
      let waiting := x.handler.bind fun h => if h.bank.isNone && !h.started then some h.trec.code else none
      { x with
        halt := some { TrapRec.zero with
          code := 0x42, halt := true, widx := w.widx, pcore := x.core, aux := waiting.getD (if cause = 0x60 then cause else 0) }
        haltStop := true
        port := s.haltPort x }

/-- The skid of a warp as far as it goes now, counted in its record; and whether it may go on later. -/
def haltSkid (s : State) (w : WarpId) : Bool × State :=
  let (n, fault, more, s) := skid w 304 s 0
  (more, s.modWarp w fun x => { x with halt := x.halt.map fun r =>
    { r with skid := r.skid + n, aux := match fault with
      | some c => if x.haltStop && r.aux = 0 then c else r.aux
      | none => r.aux } })

/-- The record of one warp of a halted team, and the warp stopped (R376): SKID, with TPC and TRESUME where it stopped. -/
def haltWarp (s : State) (t : Nat) (w : WarpId) : State :=
  let s := s.stopWarp w
  match s.warp? w with
  | none => s
  | some x =>
    match x.halt with
    | none => s
    | some r =>
      let (pc, _, rm) := respOf x
      let at' := if x.cursor.isSome then rm else ((selectEntry x.fr).map FEntry.mask).getD 0
      let r := if x.haltStop || (r.code = 0x40 && r.skid ≠ 0) then { r with pc := pc, resume := at' } else r
      (s.setWarp w { x with halt := none, haltStop := false }).postEvent (s.ctxOf t) r

/-- Row TEAM_HALT: every warp of the team stops dispatching and retires what it can; once none can retire more, each is
stopped and recorded, and the team is saved at once (R375, R376). -/
def teamHalt (s : State) (t : Nat) : State :=
  match s.team? t with
  | none => s
  | some tm =>
    match tm.halted with
    | none => s
    | some cause =>
      if !tm.status.onCluster then s
      else
        let live := ((s.warpsOf t).filter fun e => e.2.status != .exited && e.2.status != .saved).map fun e => e.1
        let s := live.foldl (fun (s : State) w => s.haltReceive cause w) s
        let (more, s) := live.foldl (fun (acc : Bool × State) w =>
          let (more, s) := acc.2.haltSkid w
          (acc.1 || more, s)) (false, s)
        if more then s
        else
          let s := live.foldl (fun (s : State) w => s.haltWarp t w) s
          s.modTeam t fun tm => { tm with halted := none, status := .saving, forced := true, deadline := none, tdl := 0 }

/-- The watchdog interval of a team. -/
def wdInterval (tm : Team) : Nat := 2 ^ tm.wdlog

/-- Row WATCHDOG_EXPIRE (R378). -/
def watchdogExpire (s : State) (w : WarpId) : State :=
  match s.warp? w, s.team? w.team with
  | some x, some tm =>
    let counts := (x.status == .running || (x.status == .handler && !waitsBank x)) && x.park.isNone && x.halt.isNone &&
      (tm.status == .placed || tm.status == .yielding) && (x.cursor.isSome || !x.fr.isEmpty || !x.window.isEmpty)
    if !counts || s.clock < x.lastRetire + wdInterval tm then s
    else
      let r : TrapRec := match x.window, x.cursor, selectEntry x.fr with
        | e :: _, _, _ => { TrapRec.zero with pc := e.pc, mask := e.mask, resume := e.mask }
        | [], some c, _ => { TrapRec.zero with pc := c.pc, mask := c.rmask, resume := c.rmask }
        | [], none, some e => { TrapRec.zero with pc := e.addr, mask := e.mask, resume := e.mask, hdr := true }
        | [], none, none => TrapRec.zero
      let r := { r with code := 0x40, widx := w.widx, pcore := x.core, nest := x.inHandler }
      (s.haltTeam w r).modWarp w fun x => { x with halt := some { r with halt := true, aux := wdInterval tm } }
  | _, _ => s

/-! ### Event rings (R369) -/

/-- LOG2E as the device reads it. -/
def log2e (n : Nat) : Nat := max 4 (min 16 (n % 32))

/-- Row EVENT_APPEND: the oldest record that waits is written while the ring has room. The ring is the one that the device read
at the last placement of a team; before any, the control header as it stands (log 102). -/
def eventAppend (s : State) (c : Nat) : State :=
  let x := s.ctx c
  match x.events with
  | [] => s
  | r :: l =>
    let (h, s) := s.devRead x.save 64
    let (base, lg) := if x.log2e = 0 then (bytesNat h 0x18 8, log2e (bytesNat h 0x20 1)) else (x.evbase, x.log2e)
    let tail := bytesNat h 0x28 4
    if (tail + 2 ^ 32 - bytesNat h 0x30 4) % 2 ^ 32 ≥ 2 ^ lg then s
    else
      let s := s.devWrite (base + 64 * (tail % 2 ^ lg)) (r.bytes true)
      let s := s.devWrite (x.save + 0x28) (leBytes 4 ((tail + 1) % 2 ^ 32))
      (s.setCtx c { x with events := l }).emit (.msix 0)

/-! ### Answers to page requests (R405, R406, R427) -/

/-- A warp parked on a page leaves PARKED and replays, its watchdog counting on. -/
def unpark (s : State) (page : Nat) (refuse : Bool) (w : WarpId) : State :=
  s.modWarp w fun x => { x with
    status := if x.status = .parked then .running else x.status
    park := none
    refused := if refuse then [page] else []
    lastRetire := s.clock - x.lastRetire }

/-- What an answer does to the engine operations of a warp that wait for a page. -/
def answerOps (s : State) (va : Nat) (refuse : Bool) (w : WarpId) : State :=
  let page := pageOf va
  match s.warp? w with
  | none => s
  | some x =>
    let s := (x.copies.filter fun o => o.paused.contains page).foldl (fun (s : State) o =>
      if refuse then s.copyStop w o false (.fail 0x10 (amGet va o.pausedAt page))
      else s.modCopy w o.id fun c => { c with paused := c.paused.filter fun p => p != page }) s
    (x.skOps.filter fun o => o.paused.contains page).foldl (fun (s : State) o =>
      if refuse then s.mergeHalt w o.id 0x10 (amGet va o.pausedAt page)
      else s.modSk w o.id fun k => { k with paused := k.paused.filter fun p => p != page }) s

/-- Rows PAGE_SERVICE_ANSWER and PAGE_SERVICE_REFUSE: the page that PSVA names answered for a context. -/
def pageService (s : State) (p c : Nat) (refuse : Bool) : State :=
  let va := (s.part p).psva
  let page := pageOf va
  let s := s.modPart p fun x => { x with psFail := refuse, psCtx := c }
  let s := s.modCtx c fun x => { x with requests := x.requests.filter fun q => q != page }
  let mine := (s.teamsOf c).flatMap fun t => (s.warpsOf t.1).map fun e => (t.2.status, e)
  let s := (mine.filter fun m => (m.1 == .placed || m.1 == .yielding) && m.2.2.park.any fun k => k.pages.contains page).foldl
    (fun (s : State) m => s.unpark page refuse m.2.1) s
  mine.foldl (fun (s : State) m => s.answerOps va refuse m.2.1) s

/-! ### Contexts (R356, R377) -/

/-- Whether a context has a grid pending, running or saved. -/
def hasGrid (s : State) (c : Nat) : Bool :=
  (s.grids.any fun g => g.2.ctx == c && !g.2.retired) ||
    s.queues.any fun q => (q.2.dev ++ q.2.hostCopied).any fun r => r.ctx == c

/-- A context and everything it holds discarded (R377). -/
def discard (s : State) (c : Nat) : State :=
  let p := (s.ctx c).part
  let teams := (s.teamsOf c).map (·.1)
  let slots := ((s.teamsOf c).flatMap fun t => t.2.stt.filterMap fun e => if e.2.hass then some e.2.slot else none)
  let s := s.modPart p fun x => { x with
    slots := x.slots.filter fun k => !slots.contains k, exhausted := x.exhausted.filter fun t => !teams.contains t }
  let s := s.modFab fun f => { f with
    landings := f.landings.filter fun l => l.ctx != c
    armed := f.armed.filter fun a => a.ctx != c
    overflow := f.overflow.filter fun q => q.ctx != c
    inbox := f.inbox.filter fun q => !(q.kind == .launch && q.ctx == c)
    reduces := f.reduces.filter fun g => ((s.grid? g).map fun x => x.ctx != c).getD false }
  let s := { s with
    warps := s.warps.filter fun e => !teams.contains (e.1 / 64)
    teams := s.teams.filter fun e => !teams.contains e.1
    grids := s.grids.filter fun e => e.2.ctx != c
    queues := s.queues.map fun (q : Nat × Queue) => (q.1, q.2.without c) }
  s.modCtx c fun x => { Ctx.reset with root := x.root, save := x.save, nextHandle := x.nextHandle }

/-- A write of a context entry's first word (R356, R357, R377). -/
def ctxWord (s : State) (c : Nat) (w : DWord) : State :=
  let v := w.getLsbD 63
  let x := s.ctx c
  let part := w.toNat % 8
  let late := fun (s : State) => if w.getLsbD 61 then s.preempt c else s.contextResume c
  if v then
    if !(s.part part).en then s
    else if s.hasGrid c then late (s.modCtx c fun x => { x with lawf := w.getLsbD 59 })
    else late (s.modCtx c fun x => { x with
      v := true, sysc := w.getLsbD 62, lawf := w.getLsbD 59, part := part, failed := x.failed && x.v })
  else if x.v && !s.saved c then s
  else (if x.v then s.discard c else s).modCtx c fun x =>
    { x with sysc := w.getLsbD 62, preq := w.getLsbD 61, lawf := w.getLsbD 59, part := part }

/-- A write of ROOT or SAVE, ignored while the context has a grid (R356). -/
def ctxRoot (s : State) (c : Nat) (v : Nat) : State := if s.hasGrid c then s else s.modCtx c fun x => { x with root := v / 65536 * 65536 }
def ctxSave (s : State) (c : Nat) (v : Nat) : State := if s.hasGrid c then s else s.modCtx c fun x => { x with save := v / 4096 * 4096 }

/-! ### Soft errors (R410, R411) -/

/-- A count that saturates at 64 bits. -/
def satInc (n : Nat) : Nat := min (n + 1) (2 ^ 64 - 1)

/-- A copy of the line or entry that an error hit dropped, its dirty bytes with it. -/
def dropCopy (s : State) (e : ErrorSite) : State :=
  match e.src with
  | 1 => s.setMem { s.mem with l2 := s.mem.l2.filter fun l => !(l.slice == e.unit && l.line == e.addr / 128) }
  | 2 => s.modCore e.unit fun c => { c with l1 := c.l1.filter fun l => l.line % 2 ^ 33 != e.addr / 128 }
  | 7 => s.modCore e.unit fun c => { c with
      descCache := c.descCache.filter fun d => d.1 % 2 ^ 46 != e.addr
      constCache := c.constCache.filter fun d => d.1 % 2 ^ 46 != e.addr
      codeCache := c.codeCache.filter fun d => d.1 % 2 ^ 46 != e.addr }
  | _ => s

/-- UESRC (Table 25-4). -/
def ueWord (e : ErrorSite) : Nat :=
  2 ^ 63 + 2 ^ 44 * bit e.ctx.isNone + 2 ^ 32 * (e.ctx.getD 0 % 4096) + 2 ^ 16 * (e.unit % 512) + e.src % 16

/-- A context halted and marked failed: each of its teams halts with cause 0x60, and one record carries the place. -/
def failCtx (s : State) (e : ErrorSite) (c : Nat) : State :=
  let s := s.modCtx c fun x => { x with failed := true }
  let s := (s.teamsOf c).foldl (fun (s : State) t =>
    if t.2.status == .placed || t.2.status == .yielding then
      match (s.warpsOf t.1).find? fun x => x.2.status != .exited with
      | none => s
      | some x =>
        s.haltTeam x.1 { TrapRec.zero with code := 0x60, widx := x.1.widx, pcore := x.2.core } true
    else s) s
  s.postEvent c { TrapRec.zero with code := 0x60, addr := e.addr, aux := ueWord e }

/-- Row UNCORRECTABLE_ERROR. -/
def uncorrectable (s : State) (e : ErrorSite) : State :=
  if e.cleanCopy then (s.dropCopy e).modPart e.part fun p => { p with cecnt := satInc p.cecnt }
  else
    let s := if e.src = 1 || e.src = 2 then s.dropCopy e else s
    let s := s.modPart e.part fun p => { p with ueaddr := e.addr, uesrc := ueWord e, uecnt := satInc p.uecnt }
    match e.carter, e.save with
    | some k, _ => s.modPart e.part fun p =>
        if p.snap.state = 2 then { p with snap := { p.snap with fail := true, cause := 5, page := k } } else p
    | none, some t => if ((s.team? t).map Team.status) = some .saving then s.saveFails t else s
    | none, none =>
      match e.ctx with
      | some c => s.failCtx e c
      | none => (s.ctxs.filter fun x => x.2.v && x.2.part == e.part && !s.saved x.1).foldl (fun (s : State) x => s.failCtx e x.1) s

end State

end Sys2Proof.Machine
end

