-- ==== Sys2Proof/Machine/Grids.lean ====
section
/-! DEFINITION. Grids and teams: records as they arrive (R84 to R88, R382), placement (R89 to R92, R100, R360, R380), the exit
of teams and the retirement of grids (R48, R56 to R59, R199, R241). -/

namespace Sys2Proof.Machine

/-- Whether several members retire a grid together (R58, R59): launched by a host or by `LAUNCH` with a nonzero PGT. -/
def Grid.pod (g : Grid) (fid : Nat) : Bool := g.pgt != 0 && (g.isHost || g.handle != 0 || g.launcher != fid)

/-! ### The checks of a record (R382, Table 23-4) -/

/-- Whether the roles break R39: 1 to 64 warps, none of role 0b11, one copy warp. -/
def rolesBad (g : Grid) : Bool :=
  g.warps < 1 || g.warps > 64 || ((List.range g.warps).any fun i => g.role i == 3) ||
    ((List.range g.warps).filter fun i => g.role i == 1).length != 1

/-- Whether allocations or tile grants break R40. -/
def grantsBad (g : Grid) : Bool :=
  ((List.range g.warps).any fun i => g.granules (g.role i) < 1 || g.granules (g.role i) > 24) || g.atiles > 16 ||
    (List.range 4).any fun c => (((List.range g.warps).filter fun i => i % 4 == c).map g.tileGrant).foldl (· + ·) 0 > 16

/-- Whether sizes break R41 or exceed the partition. -/
def sizesBad (g : Grid) (pchs : Nat) : Bool :=
  g.vscr % 2048 != 0 || g.clm % 2048 != 0 || g.vscr + g.clm > 2097152 || g.chsSize % 4096 != 0 || g.chsSize > pchs * 2 ^ 20

/-- Whether ENTRY is misaligned or a dimension out of range. -/
def shapeBad (g : Grid) : Bool := g.entry % 8 != 0 || [g.gdx, g.gdy, g.gdz].any fun d => d == 0 || d ≥ 2 ^ 31

/-- Whether a reserved field is nonzero, or, in a binding in force, holds a reserved value (R43, R202). -/
def reservedBad (g : Grid) : Bool :=
  field g.hdr 17 15 != 0 || field g.hdr 43 5 != 0 || field g.hdr 56 8 != 0 || bytesNat g.record 0x01C 4 / 128 != 0 ||
  bytesNat g.record 0x034 4 != 0 || field g.ctrig 12 19 != 0 || bytesNat g.record 0x05C 4 != 0 ||
  (g.cben && (bytesNat g.record 0x07A 1 / 2 != 0 || bytesNat g.record 0x07B 5 != 0 || bytesNat g.record 0x076 2 / 4096 != 0 ||
    g.cop > 2 || g.cfmt > 2)) ||
  ((List.range 8).any fun n => g.ringWord n / 1024 != 0) || bytesNat g.record 0x150 176 != 0

/-- The lowest sub-code of a record that its own bytes break. -/
def recordSub (g : Grid) (pchs : Nat) : Option Nat :=
  if !(1 ≤ field g.hdr 0 16 && field g.hdr 0 16 ≤ Config.recordVersion && field g.hdr 48 8 ≤ Config.functionTables) then some 0x10
  else if rolesBad g then some 0x11
  else if grantsBad g then some 0x12
  else if sizesBad g pchs then some 0x13
  else if shapeBad g then some 0x14
  else if reservedBad g then some 0x15
  else none

/-- What a process-group table comes to (R57). -/
inductive PgRes where
  | fine (rank n : Nat) (members : List Nat)
  | bad
  | wait
  deriving DecidableEq, Repr

/-- The member entries of a table: fabric identity and whether its reserved fields are zero. -/
def pgEntries (n : Nat) (l : List Byte) : List (Nat × Bool) :=
  (List.range n).map fun r => (bytesNat l (32 * r) 2, bytesNat l (32 * r) 2 < 8192 && bytesNat l (32 * r + 3) 1 == 0 &&
    bytesNat l (32 * r + 0x14) 12 == 0)

/-- The value of a WDLOG field as the device reads it (R369). -/
def clampWd (n : Nat) : Nat := if n = 0 then 32 else max 20 (min 48 n)

namespace State

/-! ### Doorbells and host rings (R85, R86, R88) -/

/-- Row DOORBELL. -/
def doorbell (s : State) (q : Nat) (v : Word) : State :=
  let x := s.queue q
  if q ≥ 64 || !s.ready.compute then s
  else if !s.ready.hbm then s.setQueue q { x with terr := true }
  else
    let ahead := (v.toNat + 2 ^ 32 - x.head) % 2 ^ 32
    if x.en && ahead ≤ 2 ^ x.log2n && (x.tail + 2 ^ 32 - x.head) % 2 ^ 32 ≤ ahead then
      let k := (v.toNat + 2 ^ 32 - x.tail) % 2 ^ 32
      let n := (s.part x.part).arrival
      (s.modPart x.part fun p => { p with arrival := n + k }).setQueue q
        { x with tail := v.toNat, hostArr := x.hostArr ++ (List.range k).map fun i => s.arrivalNo true q (n + i) }
    else s.setQueue q { x with terr := true }

/-- Row HOST_RING_COPY: the oldest submitted record copied out, once its context is defined in the queue's partition and the host
writes before its doorbell have performed (R85, R177). -/
def hostRingCopy (s : State) (q : Nat) : State :=
  let x := s.queue q
  match x.hostArr with
  | [] => s
  | n :: l =>
    if !(s.ctx x.ctx).v || (s.ctx x.ctx).part ≠ x.part || !s.host.barPend.isEmpty then s
    else
      let a := x.base + 512 * (x.head % 2 ^ x.log2n)
      let (bs, s) := s.devRead a 512
      let r : DevRec :=
        { record := bs, arrival := n, recAddr := a, ctx := x.ctx, depth := 0, parent := none, handle := 0, launcher := s.fab.fid,
          launchKey := 0, isHost := true, prio7 := false, step := 0 }
      s.modQueue q fun x => { x with head := (x.head + 1) % 2 ^ 32, hostArr := l, hostCopied := x.hostCopied ++ [r] }

/-! ### Entering device rings -/

/-- A record of another package's `LAUNCH` entered here (R58). -/
def deliverLaunch (s : State) (p : Packet) : Option State :=
  s.enqueueDev p.tag { record := p.data.map (·.2), arrival := 0, recAddr := p.addr, ctx := p.ctx, depth := p.opnd2, parent := none,
                       handle := 0, launcher := p.sfid, launchKey := p.opnd, isHost := false, prio7 := false, step := 0 }

/-- The reduce grid of a bound grid entered at class 7 (R201); one that waits stays listed. -/
def launchReduce (s : State) (gi : Nat) : Option State × State :=
  match s.grid? gi with
  | none => (some s, s)
  | some g =>
    match s.readCtx (2 ^ 34 + gi) g.ctx g.rglr 512 with
    | (.wait, s) => (none, s)
    | (r, s) =>
      let l := match r with
        | .bytes l => l
        | _ => List.replicate 512 0
      let d : DevRec := { record := l, arrival := 0, recAddr := g.rglr, ctx := g.ctx, depth := g.depth, parent := none, handle := 0,
                          launcher := s.fab.fid, launchKey := 0, isHost := false, prio7 := true, step := 0 }
      match s.enqueueDev g.queue d with
      | none => (none, s)
      | some s' => (some ((s'.inboxDrop devWarp (2 ^ 34 + gi)).modFab fun f => { f with reduces := f.reduces.filter fun k => k != gi }), s)

/-- Every launch that waits for a device-ring slot tried again. -/
def slotFreed (s : State) : State :=
  let s := s.fireWaiting
  let s := s.fab.reduces.foldl (fun (s : State) gi =>
    match s.launchReduce gi with
    | (some s, _) => s
    | (none, s) => s) s
  (s.fab.inbox.filter fun p => p.kind == .launch).foldl (fun (s : State) p =>
    match s.deliverLaunch p with
    | some s => s.modFab fun f => { f with inbox := f.inbox.erase p }
    | none => s) s

/-! ### Arrival (R57, R88, R382) -/

/-- The process-group table of a record checked (R57), read as loads under the context. -/
def readGroup (s : State) (id ctx pgt : Nat) : PgRes × State :=
  match s.readCtx id ctx pgt 32 with
  | (.wait, s) => (.wait, s)
  | (.bytes h, s) =>
    let n := bytesNat h 4 4
    if bytesNat h 0 2 ≠ 1 || n < 1 || n > 8192 || bytesNat h 2 2 ≠ 0 || bytesNat h 8 24 ≠ 0 then (.bad, s)
    else
      match s.readCtx id ctx (pgt + 32) (32 * n) with
      | (.wait, s) => (.wait, s)
      | (.bytes l, s) =>
        let es := pgEntries n l
        let mine := (List.range n).filter fun r => (es.getD r (0, false)).1 == s.fab.fid
        (match mine with
         | [r] => if es.all (·.2) then .fine r n (es.map (·.1)) else .bad
         | _ => .bad, s)
      | (_, s) => (.bad, s)
  | (_, s) => (.bad, s)

/-- Whether a report names a grid of this package (R59, R252). -/
def reportFor (fid : Nat) (p : Packet) (g : Grid) : Bool :=
  g.launcher == fid && g.pod fid && (if p.cas then g.isHost && g.queue == p.tag && g.launchKey == p.ofcnt
    else !g.isHost && g.launchKey == p.opnd)

/-- The report of a share's retirement sent to the package that waits for it. -/
def sendReport (s : State) (g : Grid) : State :=
  s.sendFree { s.packetTo .report g.launcher with
    cas := g.isHost, tag := if g.isHost then g.queue else 0, ofcnt := if g.isHost then g.launchKey else 0, opnd := g.launchKey }

/-- A record that the dispatcher takes as a pending grid, or rejects at once (R382): `sub` is what it breaks. -/
def enterGrid (s : State) (gi : Nat) (g : Grid) (sub : Option Nat) : State :=
  match sub with
  | none =>
    let mine := s.fab.inbox.filter fun p => p.kind == .report && reportFor s.fab.fid p g
    let s := s.modFab fun f => { f with inbox := f.inbox.filter fun p => !(p.kind == .report && reportFor f.fid p g) }
    s.setGrid gi { g with reports := (mine.map Packet.sfid).dedup }
  | some c =>
    let s := s.setGrid gi { g with retired := true, rejected := true }
    let s := if g.pod s.fab.fid && g.launcher ≠ s.fab.fid && (!g.isHost || !g.members.isEmpty) then s.sendReport g else s
    s.postEvent g.ctx { TrapRec.zero with code := 0x03, sub := c, aux := g.recAddr }

/-- Row RECORD_ARRIVAL: the oldest record of a queue that has been copied out, checked as a grid of its context. -/
def recordArrival (s : State) (q : Nat) : State :=
  let x := s.queue q
  let pick : Option (DevRec × Bool) := match x.dev, x.hostCopied with
    | [], [] => none
    | d :: _, [] => some (d, true)
    | [], h :: _ => some (h, false)
    | d :: _, h :: _ => if d.arrival < h.arrival then some (d, true) else some (h, false)
  match pick with
  | none => s
  | some (r, dev) =>
    let g0 := { Grid.start r.ctx q x.part r.arrival r.handle r.depth r.parent r.recAddr r.record with
                launcher := r.launcher, launchKey := r.launchKey, isHost := r.isHost }
    let g0 := if r.prio7 then { g0 with cls := 7 } else g0
    let (pg, s) := if g0.pgt = 0 then (PgRes.fine 0 1 [], s) else s.readGroup (2 ^ 32 + q) r.ctx g0.pgt
    match pg with
    | .wait => s
    | pg =>
      let k := x.podCount + 1
      let g1 := match pg with
        | .fine rank n members => { g0 with rank := rank, nrank := n, members := members }
        | _ => g0
      let g := if r.isHost && g1.pgt ≠ 0 then { g1 with launchKey := k, launcher := g1.members.headD s.fab.fid } else g1
      let sub := match recordSub g (s.part x.part).pchs with
        | some c => some c
        | none =>
          match pg with
          | .fine _ _ _ =>
            if g.cben && (g.pgt = 0 || !(s.fab.trees.any fun t => t.ident == g.tree && g.tree != 0)) then some 0x17 else none
          | _ => some 0x16
      let s := s.inboxDrop devWarp (2 ^ 32 + q)
      let s := s.modQueue q fun x =>
        { x with dev := if dev then x.dev.drop 1 else x.dev, hostCopied := if dev then x.hostCopied else x.hostCopied.drop 1
                 podCount := if r.isHost && g.pgt ≠ 0 then k else x.podCount }
      let gi := s.nextGrid
      ({ s with nextGrid := gi + 1 }.enterGrid gi g sub).slotFreed

/-! ### Placement -/

/-- The physical clusters of a partition in ascending order (R220). -/
def clustersOf (p : Part) : List Nat :=
  (List.range 16).flatMap fun h => if field p.hubMask h 1 = 1 then (List.range 8).map (8 * h + ·) else []

/-- The logical cluster of a team on the k-th of P physical clusters (R220). -/
def logicalCluster (k total t : Nat) : Nat := k + total * (t % ((127 - k) / total + 1))

/-- Tiles granted on a core to the warps of teams that hold it. -/
def tilesHeld (s : State) (c : Nat) : Nat :=
  ((s.warps.filter fun e => e.2.core == c && ((s.team? (e.1 / 64)).any fun t => t.status.onCluster)).map fun e => e.2.atl).foldl (· + ·) 0

/-- Whether a cluster meets Table 5-3 for warps with an allocation and a tile grant each; a warp that has exited comes back with
no allocation, for its tiles alone (R100). -/
def fits (s : State) (cl : Nat) (need : List (Nat × Option Nat × Nat)) : Bool :=
  (List.range 4).all fun c =>
    let core := 4 * cl + c
    let mine := need.filter fun n => n.1 % 4 == c
    let live := mine.filterMap fun n => n.2.1
    (s.warpsOn core).length + live.length ≤ 16 &&
    (live.map fun g => 32 * g + Config.headroom).foldl (· + ·) 0 ≤ s.freeRegs core &&
    s.tilesHeld core + (mine.map fun n => n.2.2).foldl (· + ·) 0 ≤ 16

/-- The charges of a partition not yet aged out. -/
def chargeSum (p : Part) : Nat := (p.charges.map Charge.mj).foldl (· + ·) 0

/-- The energy rules (R92, R360). -/
def energyAdmits (s : State) (pi cls : Nat) : Bool :=
  let p := s.part pi
  let e := amGet 0 p.eclass cls
  let a := chargeSum p
  let resident := s.teams.any fun t => t.2.status.onCluster && ((s.grid? t.2.grid).any fun g => g.part == pi)
  (if e > p.ebud then a == 0 && !resident else p.emeter + a + e ≤ p.ebud) &&
    s.host.epkg + (s.parts.map fun q => chargeSum q.2).foldl (· + ·) 0 + e ≤ (1800 + 25 * s.host.pwrNow) * s.host.ewinNow

/-- A team's charge entered: it ages out one window later. -/
def charge (s : State) (pi cls : Nat) : State :=
  s.modPart pi fun p => { p with
    charges := p.charges ++ [{ k := p.chargeNo, expiry := s.clock + s.host.ewinNow * 4000000, mj := amGet 0 p.eclass cls }]
    chargeNo := p.chargeNo + 1 }

/-- The teams of a grid that wait to be placed, lowest index first: saved ones, and the next one never placed. -/
def waiting (s : State) (gi : Nat) (g : Grid) : List (Nat × Option Nat) :=
  let saved := (s.teams.filter fun t => t.2.grid == gi && t.2.status == .pending && t.2.savePhase == 1).map fun t => (t.2.idx, some t.1)
  let next := g.share.1 + g.placed
  let all := if next < g.share.2 then saved ++ [(next, none)] else saved
  all.foldl (fun (l : List (Nat × Option Nat)) e => l.takeWhile (fun d => d.1 < e.1) ++ [e] ++ l.dropWhile fun d => d.1 < e.1) []

/-- The grids of a partition that wait to place a team, by class and then by arrival (R91). -/
def pendingGrids (s : State) (pi : Nat) : List (Nat × Grid) :=
  let mine := s.grids.filter fun g => g.2.part == pi && !g.2.retired && !(s.waiting g.1 g.2).isEmpty
  let byArrival := fun (l : List (Nat × Grid)) => l.foldl (fun (l : List (Nat × Grid)) e =>
    l.takeWhile (fun d => d.2.arrival < e.2.arrival) ++ [e] ++ l.dropWhile fun d => d.2.arrival < e.2.arrival) []
  [7, 6, 5, 4, 3, 2, 1, 0].flatMap fun c => byArrival (mine.filter fun g => g.2.cls == c)

/-- A control header as read at a placement (R369): THND and WDLOG for the team, and the event ring for the context. -/
def readControl (s : State) (c : Nat) : (Nat × Nat) × State :=
  let (h, s) := s.devRead (s.ctx c).save 64
  ((bytesNat h 8 8, clampWd (bytesNat h 0x10 1 % 64)),
   s.modCtx c fun x => { x with evbase := bytesNat h 0x18 8, log2e := log2e (bytesNat h 0x20 1) })

/-- A grid started (R89, R201, R203): its chip scratchpad is reserved; a bound grid sets its counter and takes its step. -/
def startGrid (s : State) (gi : Nat) : State :=
  match s.grid? gi with
  | none => s
  | some g =>
    if g.started then s
    else
      let g := { g with started := true, chsBytes := g.chsSize }
      if g.cben then
        let step := ((s.fab.trees.find? fun t => t.ident == g.tree).map Tree.asg).getD 1
        let s := (s.trigSet g.ctrg g.total).modFab fun f =>
          { f with trees := f.trees.map fun (t : Tree) => if t.ident = g.tree then { t with asg := t.asg + 1 } else t }
        s.setGrid gi { g with step := step }
      else s.setGrid gi g

/-- The lowest warp slot of a core that no resident warp holds. -/
def freeSlot (s : State) (core : Nat) : Nat := (lowestFree ((s.warpsOn core).map fun e => e.2.slot) 16).getD 0

/-- A warp of a new team (R34, R40, R53). -/
def bornWarp (s : State) (t cl : Nat) (g : Grid) (i : Nat) : State :=
  let w : WarpId := ⟨t, i⟩
  let core := 4 * cl + i % 4
  let role := g.role i
  let e : FEntry := { addr := g.entry, mask := allLanes, prio := 0, passes := 0, rejoin := false }
  let s := s.setWarp w (Warp.start role core (s.freeSlot core) (g.granules role) (g.tileGrant i) s.clock e)
  let (e, s) := s.newEntry w g.entry allLanes
  s.modWarp w fun x => { x with fr := [e] }

/-- The read-only copies of a cluster's cores dropped before a team comes to it: the launch of a new team is an acquire (R47),
and a resumed team sees what its launch made visible (R114, R226). -/
def cleanCluster (s : State) (cl : Nat) : State :=
  (List.range 4).foldl (fun (s : State) c =>
    ((s.l1InvalidateAll (4 * cl + c)).noCache (4 * cl + c)).modCore (4 * cl + c) fun x =>
      { x with constCache := [], codeCache := [], descCache := [] }) s

/-- A team placed for the first time. -/
def placeNew (s : State) (gi : Nat) (g : Grid) (idx cl lcl : Nat) : State :=
  let ((thnd, wd), s) := s.readControl g.ctx
  let s := (s.startGrid gi).cleanCluster cl
  let t := s.nextTeam
  let s := { s with nextTeam := t + 1 }.setTeam t (Team.start gi idx cl lcl g.warps thnd wd g)
  let s := s.modGrid gi fun g => { g with placed := g.placed + 1 }
  (List.range g.warps).foldl (fun (s : State) i => s.bornWarp t cl g i) s

/-! ### Placing a saved team (R100, R101, R380) -/

/-- A warp block read from memory. -/
def fetchBlock (s : State) (a role atl : Nat) : WBlock × State :=
  let (h, s) := s.devRead a 64
  if field (bytesNat h 0 8) 25 1 = 1 then (readWarpBlock role atl h, s)
  else
    let (l, s) := s.devRead a 0x3C0
    let tags := (List.range (32 * field (bytesNat h 0 8) 12 5)).map fun n => tagOf l 0x2E0 n
    let n := 0x3C0 + (groupRegs tags []).2
    if field (bytesNat h 0 8) 23 1 = 0 then
      let (l, s) := s.devRead a n
      (readWarpBlock role atl l, s)
    else
      let (l, s) := s.devRead a (n + 8)
      let hn := (groupRegs ((List.range 32).map fun k => tagOf l n k) []).2
      let (l, s) := s.devRead a (n + 8 + hn + 64)
      (readWarpBlock role atl l, s)

/-- The team block and the warp blocks of a saved team. -/
def fetchBlocks (s : State) (g : Grid) (tm : Team) : (List Byte × List WBlock) × State :=
  let base := (s.ctx g.ctx).save + tm.blockOff
  let tiles := ((List.range g.warps).map g.tileGrant).foldl (· + ·) 0
  let (tb, s) := s.devRead base (0x2140 + 8192 * tiles)
  let (ws, _, s) := (List.range g.warps).foldl (fun (acc : List WBlock × Nat × State) i =>
    let (b, s) := acc.2.2.fetchBlock acc.2.1 (g.role i) (g.tileGrant i)
    (acc.1 ++ [b], acc.2.1 + b.size, s)) ([], base + up64 (0x2140 + 8192 * tiles), s)
  ((tb, ws), s)

/-- A frontier entry with the REJOIN bit of its header. -/
def rejoined (s : State) (w : WarpId) (e : FEntry) : FEntry × State :=
  let (n, s) := s.newEntry w e.addr e.mask
  ({ e with rejoin := n.rejoin, known := n.known }, s)

/-- Entries with the REJOIN bits of their headers. -/
def rejoinAll (s : State) (w : WarpId) (l : List FEntry) : List FEntry × State :=
  l.foldl (fun (acc : List FEntry × State) e => let (e, s) := acc.2.rejoined w e; (acc.1 ++ [e], s)) ([], s)

/-- A position inside a clause that has yet to be fetched (R101). -/
def resumeAt (pc : Nat) (live rmask : Mask) : Option Cursor :=
  if live = 0 then none
  else some { hdr := 0, pc := pc, last := 2 ^ 64, live := live, rmask := rmask &&& live, eng := 0, words := [] }

/-- A warp restored from its block; its tiles come from the team block. -/
def restoreWarp (s : State) (t cl : Nat) (i : Nat) (b : WBlock) (tiles : AMap Word) : State :=
  let w : WarpId := ⟨t, i⟩
  match s.warp? w with
  | none => s
  | some old =>
    let core := 4 * cl + i % 4
    let entry := old.fr.headD FEntry.empty
    let x := { Warp.start old.role core (s.freeSlot core) b.g old.atl s.clock entry with
               serial := old.serial, seq := old.seq, msgCounts := old.msgCounts, fpend := old.fpend, tiles := tiles
               lastRetire := s.clock - old.wdHeld.getD 0
               regs := b.regs, preds := b.preds, hregs := b.hregs, sigs := { t := sigOnes, c := sigOnes, p := sigOnes, s := sigOnes } }
    if b.exited then s.setWarp w { x with status := .exited, fr := [] }
    else
      let s := s.setWarp w { x with fr := [] }
      if field b.hdr 23 1 = 1 then
        let (frozen, s) := s.rejoinAll w (b.fr.drop 1)
        let (mine, s) := s.rejoinAll w ((b.fr.take 1).filter fun e => e.mask != 0)
        let fcur := if b.trec.hdr then none
          else some { hdr := 0, pc := b.trec.pc, last := 2 ^ 64, live := b.trec.live, rmask := b.trec.resume, eng := 0, words := [] }
        let h : Handler := { bank := none, since := s.clock, started := true, trec := b.trec, frozen := frozen, fcur := fcur }
        (s.modWarp w fun x => { x with status := .handler, handler := some h, fr := mine, cursor := resumeAt b.pc b.live b.rmask }).giveBank core
      else
        let (fr, s) := s.rejoinAll w b.fr
        (s.modWarp w fun x => { x with fr := fr, cursor := resumeAt b.pc b.live b.rmask }).checkExit w

/-- The tile words that a team block holds for a run of tiles. -/
def blockTiles (tb : List Byte) (first n : Nat) : AMap Word :=
  (List.range (2048 * n)).foldl (fun (m : AMap Word) k =>
    amPut 0 m k (BitVec.ofNat 32 (bytesNat tb (0x2140 + 8192 * first + 4 * k) 4))) []

/-- A saved team placed again; the signature stores it takes signatures from start at all ones (R168). -/
def placeSaved (s : State) (g : Grid) (t cl lcl : Nat) (tm : Team) (tb : List Byte) (ws : List WBlock) : State :=
  let ((thnd, wd), s) := s.readControl g.ctx
  let s := (s.cleanCluster cl).modGrid tm.grid fun g => { g with chipSig := SigStore.ones s.clock }
  let n := s.allPages t
  let rings := (List.range 8).map fun r => (List.range (g.nstg r)).map fun k => Stage.ofByte (bytesNat tb (0x90 + 16 * r + k) 1)
  let stt := (List.range 1024).foldl (fun (m : AMap SttE) p =>
    amPut (SttE.empty (decide (p < n))) m p { SttE.ofWord (bytesNat tb (0x110 + 8 * p) 8) with res := false }) []
  let bars := (List.range 16).map fun b => Bar.ofWord (bytesNat tb (0x10 + 8 * b) 8)
  let s := s.setTeam t { tm with
    status := .placed, cluster := cl, lcluster := lcl, bars := bars, rings := rings, stt := stt, scrSig := SigStore.ones s.clock
    pqdl := g.pqdl, deadline := none, tdl := 0, forced := false, halted := none, savePhase := 0, thnd := thnd, wdlog := wd }
  let first := fun i => ((List.range i).map g.tileGrant).foldl (· + ·) 0
  (ws.zip (List.range ws.length)).foldl (fun (s : State) b => s.restoreWarp t cl b.2 b.1 (blockTiles tb (first b.2) (g.tileGrant b.2))) s

/-- A saved team whose blocks fail a check (R380). -/
def restoreFails (s : State) (g : Grid) (tm : Team) : State :=
  (s.postEvent g.ctx { TrapRec.zero with code := 0x42, sub := 0x02, addr := g.recAddr, aux := tm.blockOff }).preempt g.ctx

/-- One placement counted (R91): every other lowest team of the partition has waited for it. -/
def countDecision (s : State) (pi gi : Nat) (lowest : Bool) : State :=
  { s with grids := s.grids.map fun (e : Nat × Grid) =>
    if e.2.part ≠ pi || e.2.retired || (s.waiting e.1 e.2).isEmpty then e
    else if e.1 = gi && lowest then (e.1, { e.2 with decisions := 0 })
    else (e.1, { e.2 with decisions := e.2.decisions + 1 }) }

/-- The first cluster of a partition, with its number in it, that takes a team's warps. -/
def findCluster (s : State) (pi : Nat) (need : List (Nat × Option Nat × Nat)) : Option (Nat × Nat) :=
  let l := clustersOf (s.part pi)
  ((List.range l.length).map fun k => (k, l.getD k 0)).find? fun c => s.fits c.2 need

/-- One team of a grid placed if it fits, or found unfit to be restored. -/
def tryTeam (s : State) (pi gi : Nat) (g : Grid) (lowest : Bool) (c : Nat × Option Nat) : Option State :=
  if !s.energyAdmits pi g.eclass then none
  else
    let total := (clustersOf (s.part pi)).length
    match c.2 with
    | none =>
      let need := (List.range g.warps).map fun i => (i, some (g.granules (g.role i)), g.tileGrant i)
      match s.findCluster pi need with
      | none => none
      | some (k, cl) =>
        some (((s.placeNew gi g c.1 cl (logicalCluster k total c.1)).charge pi g.eclass).countDecision pi gi lowest)
    | some t =>
      match s.team? t with
      | none => none
      | some tm =>
        if !(s.ctx g.ctx).events.isEmpty then none
        else
          let ((tb, ws), s) := s.fetchBlocks g tm
          if teamBlockBad g.warps tb || ws.any WBlock.bad then some (s.restoreFails g tm)
          else
            let need := (ws.zip (List.range ws.length)).map fun b =>
              (b.2, if b.1.exited then none else some b.1.g, g.tileGrant b.2)
            match s.findCluster pi need with
            | none => none
            | some (k, cl) =>
              some (((s.placeSaved g t cl (logicalCluster k total tm.idx) tm tb ws).charge pi g.eclass).countDecision pi gi lowest)

/-- The free chip scratchpad of a partition. -/
def chipFree (s : State) (pi : Nat) : Nat :=
  (s.part pi).pchs * 2 ^ 20 - ((s.grids.filter fun g => g.2.part == pi && !g.2.retired).map fun g => g.2.chsBytes).foldl (· + ·) 0

/-- The teams of a grid tried: the lowest alone in ordered mode, each in turn in back-fill mode (R91). -/
def tryGrid (s : State) (pi gi : Nat) (g : Grid) : Option State :=
  let c := s.ctx g.ctx
  if !c.v || c.preq || c.failed || (!g.started && g.chsSize > s.chipFree pi) then none
  else
    match s.waiting gi g with
    | [] => none
    | e :: l =>
      match s.tryTeam pi gi g true e with
      | some s => some s
      | none => if g.det then none else l.findSome? fun e => s.tryTeam pi gi g false e

/-- Row TEAM_PLACE: the dispatcher's next placement in a partition (R89 to R92). A class in which a team has waited for
65,536 decisions blocks the lower ones. -/
def teamPlace (s : State) (pi : Nat) : State :=
  if !(s.part pi).en then s
  else
    let l := s.pendingGrids pi
    let floor := (l.filter fun g => g.2.decisions ≥ 65536).foldl (fun n g => max n g.2.cls) 0
    ((l.filter fun g => g.2.cls ≥ floor).findSome? fun g => s.tryGrid pi g.1 g.2).getD s

/-! ### The exit of a team (R199, R241) -/

/-- Whether everything that the warps of an exiting team left behind has performed. -/
def exitReady (s : State) (t : Nat) : Bool :=
  (s.warpsOf t).all fun e =>
    e.2.status == .exited && e.2.loads.isEmpty && (e.2.stores.all fun o => o.todo == 0) && e.2.tileOps.isEmpty &&
      e.2.skOps.isEmpty && e.2.copies.isEmpty && e.2.batches.isEmpty && !s.flushHeld e.2.core

/-- A request for a page that the collective engine waits for, as an engine operation makes one (R406, log 99). -/
def chunkRequest (s : State) (c va : Nat) : State :=
  if (s.ctx c).requests.contains (pageOf va) then s
  else
    (s.modCtx c fun z => { z with requests := z.requests ++ [pageOf va] }).postEvent c
      { TrapRec.zero with code := 0x10, sub := 0x20, addrv := true, addr := va }

/-- The chunk of an exiting team sent into its tree, unless the program sent it or the tree is broken (R199, R310, R421). The
flag says that the exit goes on. A page of the chunk that is serviceable and absent is asked for and waited for; one that cannot
be read at all sends no chunk (log 99). -/
def exitChunk (s : State) (t gi : Nat) (g : Grid) (idx : Nat) : Bool × State :=
  if !g.cben || g.sent.contains idx || (s.fab.trees.find? fun u => u.ident == g.tree).all Tree.broken then (true, s)
  else
    match s.readCtx (2 ^ 35 + t) g.ctx (g.rbase + idx * g.chunk) g.chunk with
    | (.wait, s) => (false, s)
    | (.absent va, s) => (false, s.chunkRequest g.ctx va)
    | (.fail _ _, s) => (true, s)
    | (.bytes l, s) =>
      (true, ((s.inboxDrop devWarp (2 ^ 35 + t)).sendChunk g.tree g.step idx l).modGrid gi fun g => { g with sent := g.sent ++ [idx] })

/-- Row TEAM_EXIT: the exit performs as a release at chip scope, and the team's resources are free. -/
def teamExit (s : State) (t : Nat) : State :=
  match s.team? t, s.gridOf? t with
  | some tm, some (gi, g) =>
    if !(tm.status == .placed || tm.status == .yielding) || tm.halted.isSome || !s.exitReady t then s
    else
      let s := (s.warpsOf t).foldl (fun (s : State) (e : WarpId × Warp) => (s.l1Flush e.2.core).closeStreams e.1) s
      match s.exitChunk t gi g tm.idx with
      | (false, s) => s
      | (true, s) =>
        let slots := tm.stt.filterMap fun e => if e.2.hass then some e.2.slot else none
        let s := (s.freeFrames t).modPart g.part fun p =>
          { p with slots := p.slots.filter fun k => !slots.contains k, exhausted := p.exhausted.filter fun u => u != t }
        let s := s.setTeam t { tm with status := .exited, stt := [], rslots := [], deadline := none }
        (s.modGrid gi fun g => { g with exitedTeams := g.exitedTeams + 1 }).afterSave g.ctx
  | _, _ => s

/-! ### Retirement of grids (R42, R48, R58, R59) -/

/-- Whether a grid is another or descends from it. -/
def under (s : State) : Nat → Nat → Nat → Bool
  | 0, gi, top => gi == top
  | fuel + 1, gi, top => gi == top || ((s.grid? gi).bind Grid.parent).any fun p => under s fuel p top

/-- Whether a remote write of a grid or of its descendants is unacknowledged. -/
def writesOpen (s : State) (gi : Nat) : Bool :=
  s.fab.reqs.any fun r => countedWrite r.kind && match ownerWarp r.owner with
    | none => false
    | some w => (s.team? w.team).any fun t => s.under 11 t.grid gi

/-- Whether the share of a grid and every grid it launched are done (R48). -/
def shareDone (s : State) (gi : Nat) (g : Grid) : Bool :=
  g.exitedTeams == g.share.2 - g.share.1 && (s.grids.all fun k => k.2.parent != some gi || k.2.retired) &&
    s.queues.all fun q => q.2.dev.all fun r => r.parent != some gi

/-- A grid retired: its chip scratchpad is free, and its completion counter rises here and, for a grid of several
packages, on every member (R42). -/
def retireGrid (s : State) (gi : Nat) (g : Grid) : State :=
  let s := s.setGrid gi { g with retired := true, chs := [], chsBytes := 0 }
  if g.ctrig / 2 ^ 31 = 0 then s
  else
    let n := g.ctrig % 4096
    let others := if g.pod s.fab.fid then g.members.filter fun f => f != s.fab.fid else []
    (others.foldl (fun (s : State) f => s.sendFree { s.packetTo .increment f with tag := n, opnd := 1 }) s).trigAdd n 1 none

/-- Row GRID_RETIRE. -/
def gridRetire (s : State) (gi : Nat) : State :=
  match s.grid? gi with
  | none => s
  | some g =>
    let pod := g.pod s.fab.fid
    if g.retired || !s.shareDone gi g || ((pod || g.isHost) && s.writesOpen gi) then s
    else if !pod then s.retireGrid gi g
    else if g.launcher ≠ s.fab.fid then
      (s.sendReport g).setGrid gi { g with retired := true, reported := true, chs := [], chsBytes := 0 }
    else
      let g := if g.reported then g else { g with reported := true, reports := addOffs g.reports [s.fab.fid] }
      if g.reports.length ≥ g.nrank then s.retireGrid gi g else s.setGrid gi g

/-! ### What other packages send about grids -/

/-- Whether a packet is for this package and of no other incarnation (R187, R418). -/
def current (s : State) (p : Packet) : Bool :=
  p.dfid == s.fab.fid && p.dinc == s.fab.inc && p.sinc == amGet 0 s.fab.peers p.sfid

/-- A packet taken as its row does, or dropped and counted (R418); one of a reserved kind is dropped (Table 9-2). None arrives
before the links are trained. -/
def accept (s : State) (p : Packet) (kind : PktKind) (f : State → State) : State :=
  if (p.kind ≠ kind && !p.kind.reserved) || s.fab.linksUp = 0 then s
  else if s.current p then (if p.kind = kind then f s else s)
  else s.modHost fun h => { h with stalecnt := satInc h.stalecnt }

/-- A report of a share's retirement counted for its grid, or held until the grid arrives here. -/
def takeReport (s : State) (p : Packet) : State :=
  match s.grids.find? fun g => reportFor s.fab.fid p g.2 with
  | some g => if g.2.retired then s else s.setGrid g.1 { g.2 with reports := addOffs g.2.reports [p.sfid] }
  | none => s.modFab fun f => { f with inbox := f.inbox ++ [p] }

/-- A record of another package's `LAUNCH`, which waits while its queue cannot take it. -/
def takeLaunch (s : State) (p : Packet) : State :=
  match s.deliverLaunch p with
  | some s => s
  | none => s.modFab fun f => { f with inbox := f.inbox ++ [p] }

end State

end Sys2Proof.Machine
end

