-- ==== Sys2Proof/Machine/Snapshot.lean ====
section
/-! DEFINITION. The snapshot engine and the Carter (R361 to R365, R422, R423). -/

namespace Sys2Proof.Machine

/-- Bytes and lines of a snapshot page. -/
def snapBytes : Nat := 2 ^ 19
def snapLines : Nat := 4096

namespace State

def modSnap (s : State) (p : Nat) (f : Snap → Snap) : State := s.modPart p fun x => { x with snap := f x.snap }

def modPage (s : State) (p k : Nat) (f : SnPage → SnPage) : State :=
  s.modSnap p fun x => { x with pages := x.pages.map fun (g : SnPage) => if g.k = k then f g else g }

/-- The completion counter of a tree on this package. -/
def treeCmp (s : State) (t : Nat) : Option Nat := (s.fab.trees.find? fun u => u.ident == t && t != 0).map Tree.cmp

/-! ### Arming (R361) -/

/-- The first addresses of the pages that list entries name; none for an entry with a nonzero unused bit or a misaligned
address. -/
def snapList (l : List Byte) : Nat → Option (List Nat)
  | 0 => some []
  | n + 1 =>
    match snapList l n with
    | none => none
    | some vs =>
      let e := l.drop (16 * n)
      if bytesNat e 0 8 % snapBytes ≠ 0 || bytesNat e 12 4 ≠ 0 then none
      else some (vs ++ (List.range (bytesNat e 8 4)).map fun k => bytesNat e 0 8 + snapBytes * k)

/-- The leaf of a page of the set, if it is a 512 KiB leaf of TYPE 00. -/
def snapLeaf (s : State) (c va : Nat) : Option Tlb × State :=
  if va ≥ 2 ^ 57 then (none, s)
  else
    match s.walk c va with
    | (.leaf e, s) => (if e.big || pteType e.leaf ≠ 0 || s.foreignStack (s.ctx c).part e then none else some e, s)
    | (_, s) => (none, s)

/-- The pages of a set, or the number of the first that is not fit. -/
def snapPages (s : State) (c : Nat) (vs : List Nat) : Except Nat (List SnPage) × State :=
  vs.foldl (fun (acc : Except Nat (List SnPage) × State) va =>
    match acc.1 with
    | .error k => (.error k, acc.2)
    | .ok l =>
      match acc.2.snapLeaf c va with
      | (none, s) => (.error l.length, s)
      | (some e, s) => (.ok (l ++ [{ k := l.length, eaddr := e.eaddr, frame := pteAddr e.leaf, key := pteKey e.leaf, early := false,
                                     ahead := false, twin := none, order := 0, drained := false, acks := 0, resends := 0,
                                     copy := [], lost := false }]), s)) (.ok [], s)

/-- An arm refused (R422). -/
def snapRefuse (s : State) (p cause page : Nat) : State := s.modSnap p fun x => { x with state := 0, fail := true, cause := cause, page := page }

/-- The cut (R362): every leaf of the set at TWIN 00 becomes TWIN 10; one at TWIN 01 keeps its shadow and is marked. -/
def snapCut (s : State) (p : Nat) : State :=
  let s := (s.part p).snap.pages.foldl (fun (s : State) (g : SnPage) =>
    let (e, s) := s.readPte g.eaddr
    let s := s.modPage p g.k fun g => { g with frame := pteAddr e, key := pteKey e, early := pteTwin e == 1 }
    if pteTwin e = 0 then s.rewriteLeaf g.eaddr (pteSetTwin e 2) else s) s
  s.modSnap p fun x => { x with state := 2 }

/-- Row SNAPSHOT_CUT: the cut is taken once the tree's completion counter has reached SNSTEP. -/
def snapshotCut (s : State) (p : Nat) : State :=
  let x := (s.part p).snap
  if x.state = 1 && (s.treeCmp x.tree).any fun c => x.snstep.toNat ≤ c then s.snapCut p else s

/-- Row SNAPSHOT_ARM: a write of SNCTL. -/
def snapshotArm (s : State) (p : Nat) (w : DWord) : State :=
  let x := (s.part p).snap
  if (x.state = 1 || x.state = 2) && w.getLsbD 0 then s
  else
    let v := w.toNat
    let s := s.modSnap p fun x =>
      { x with tree := field v 48 16, ctx := field v 36 12, key := field v 24 12, trg := field v 12 12, trgen := w.getLsbD 11 }
    if !w.getLsbD 0 then s
    else
      let s' := s.modSnap p fun x => { x with fail := false, cause := 0, page := 0, pages := [] }
      let n := x.sncnt.toNat % 2 ^ 32
      match s'.readCtx (2 ^ 36 + p) (field v 36 12) x.snset.toNat (16 * n) with
      | (.wait, s) => s
      | (.bytes l, s) =>
        let s := s.inboxDrop devWarp (2 ^ 36 + p)
        match snapList l n with
        | none => s.snapRefuse p 1 0
        | some vs =>
          match s.snapPages (field v 36 12) vs with
          | (.error k, s) => s.snapRefuse p 1 k
          | (.ok pages, s) =>
            if !s.ready.fabric then s.snapRefuse p 2 0
            else if (s.treeCmp (field v 48 16)).isNone then s.snapRefuse p 3 0
            else (s.modSnap p fun x => { x with state := 1, pages := pages, total := pages.length, done := 0, twins := 0 }).snapshotCut p
      | (_, s) => s.snapRefuse p 1 0

/-! ### Draining (R365) -/

/-- The page that the Carter takes next: marked leaves and leaves that a change waits for in page order, then twins from
the oldest, then the rest in page order. -/
def nextPage (x : Snap) : Option SnPage :=
  let left := x.pages.filter fun g => !g.drained
  let best := fun (f : SnPage → Nat) (l : List SnPage) => l.foldl (fun (b : Option SnPage) g =>
    match b with
    | none => some g
    | some d => if f g < f d then some g else some d) none
  match best SnPage.k (left.filter fun g => g.early || g.ahead) with
  | some g => some g
  | none =>
    match best SnPage.order (left.filter fun g => g.twin.isSome) with
    | some g => some g
    | none => best SnPage.k left

/-- The write packets of a page sent to the storage package. -/
def sendPage (s : State) (p : Nat) (g : SnPage) (bs : List Byte) : State :=
  let x := (s.part p).snap
  let fid := field x.sntgt.toNat 48 13
  let base := field x.sntgt.toNat 0 48 + snapBytes * g.k
  (List.range snapLines).foldl (fun (s : State) i =>
    let q := { s.packetTo .write fid with
      addr := base + 128 * i, key := x.key, data := ((bs.drop (128 * i)).take 128).mapIdx fun k b => (k, b) }
    (s.sendReq q { bareReq (.carter p g.k) with va := base + 128 * i } none).getD s) s

/-- Row CARTER_DRAIN_PAGE: the next page written out, its leaf back at TWIN 00 and its twin in the pool. A marked leaf
keeps its shadow. -/
def carterDrain (s : State) (p k : Nat) : State :=
  let x := (s.part p).snap
  match nextPage x with
  | none => s
  | some g =>
    if x.state ≠ 2 || x.fail || g.k ≠ k then s
    else
      let (bs, s) := s.homeRead (g.twin.getD g.frame * 2 ^ 19) g.key 0 snapBytes
      let s := s.modPage p k fun g => { g with drained := true, acks := snapLines, copy := bs }
      let s := s.sendPage p g bs
      let (e, s) := s.readPte g.eaddr
      let s := if g.early then s else s.rewriteLeaf g.eaddr (pteSetTwin e 0)
      match g.twin with
      | none => s
      | some f => (s.giveTwin p f).modPage p k fun g => { g with twin := none }

/-- A page whose packets have all been answered: it counts in SNDONE, is sent again, or stops the engine (R365, R423). -/
def pageAnswered (s : State) (p : Nat) (g : SnPage) : State :=
  if !g.lost then
    let s := s.modPage p g.k fun g => { g with copy := [] }
    let s := s.modSnap p fun x => { x with done := x.done + 1 }
    let x := (s.part p).snap
    if x.done = x.total then
      let s := s.modSnap p fun x => { x with state := 3 }
      if x.trgen then s.trigAdd x.trg 1 none else s
    else s
  else if g.resends < 3 then
    (s.modPage p g.k fun g => { g with lost := false, acks := snapLines, resends := g.resends + 1 }).sendPage p g g.copy
  else s.modSnap p fun x => { x with fail := true, cause := 4, page := g.k }

/-- One packet of a page answered, or timed out. -/
def carterAnswer (s : State) (p k : Nat) (ok : Bool) : State :=
  let s := s.modPage p k fun g => { g with acks := g.acks - 1, lost := g.lost || !ok }
  let x := (s.part p).snap
  match x.pages.find? fun g => g.k == k with
  | none => s
  | some g => if x.state = 2 && g.acks = 0 && g.drained then s.pageAnswered p g else s

/-- Row SNAPSHOT_RETRY: the drain goes on, the pages that stopped it sent again. -/
def snapshotRetry (s : State) (p : Nat) : State :=
  let x := (s.part p).snap
  if x.state ≠ 2 || !x.fail then s
  else
    let s := s.modSnap p fun x => { x with fail := false, cause := 0, page := 0 }
    (x.pages.filter fun g => g.drained && g.lost && g.acks == 0).foldl (fun (s : State) g =>
      (s.modPage p g.k fun g => { g with lost := false, acks := snapLines, resends := 0 }).sendPage p g g.copy) s

/-- Row SNAPSHOT_ABORT: leaves back at TWIN 00, twins back in the pool, the engine idle. -/
def snapshotAbort (s : State) (p : Nat) : State :=
  let x := (s.part p).snap
  if x.state ≠ 1 && x.state ≠ 2 then s
  else
    let s := if x.state = 1 then s else (x.pages.filter fun g => !g.drained && !g.early).foldl (fun (s : State) g =>
      let (e, s) := s.readPte g.eaddr
      let s := s.rewriteLeaf g.eaddr (pteSetTwin e 0)
      match g.twin with
      | none => s
      | some f => s.giveTwin p f) s
    s.modSnap p fun x => { x with state := 0, pages := [] }

end State

end Sys2Proof.Machine
end

