-- ==== Sys2Proof/Machine/Fabric.lean ====
section
/-! DEFINITION. What arrives from the fabric: requests performed at their homes (R181, R184), ordered streams and flags
(R186), answers and timeouts (R183, R415 to R417). -/

namespace Sys2Proof.Machine

namespace State

/-! ### Requests answered -/

/-- A request made to a package and not answered. -/
def reqOf (s : State) (id fid : Nat) : Option Req := s.fab.reqs.find? fun r => r.id == id && r.fid == fid

/-- A request answered, or given up: its path pin and its warp's acknowledgement counter fall (R180, R183). -/
def dropReq (s : State) (r : Req) : State :=
  let s := s.modFab fun f => { f with reqs := f.reqs.filter fun q => !(q.id == r.id && q.fid == r.fid) }
  let s := match r.pin with
    | none => s
    | some line => s.modCore r.core fun c =>
      match amFind c.pins line with
      | none => c
      | some q => { c with pins := if q.count ≤ 1 then amErase c.pins line else amSet c.pins line { q with count := q.count - 1 } }
  match ownerWarp r.owner with
  | none => s
  | some w => if countedWrite r.kind && r.out then s.fpendAdd w r.link false else s

/-- A packet that answers another. -/
def answerTo (s : State) (p : Packet) (kind : PktKind) : Packet := { s.packetTo kind p.sfid with req := p.req }

/-- An acknowledgement, or a negative one, sent. -/
def sendAck (s : State) (p : Packet) : State := s.sendFree (s.answerTo p .ack)
def sendNack (s : State) (p : Packet) : State := s.sendFree (s.answerTo p .nack)

/-! ### Accesses of other packages (R174, R181) -/

/-- The address that an access of another package reaches: one to a superseded frame goes to the frame that replaced
it (R174). -/
def redirected (s : State) (addr : Nat) : Nat :=
  match s.mem.redirs.find? fun r => r.1 == addr / 2 ^ 19 with
  | some r => r.2.1 * 2 ^ 19 + addr % 2 ^ 19
  | none => addr

/-- Row READ_REQUEST: the bytes as the home holds them, in replacement class 0 (log 97); for an acquire, with the signature of
its sector. -/
def serveRead (s : State) (p : Packet) : State :=
  if s.keyWaits p.key then s
  else
    let a := s.redirected p.addr
    let (bs, s) := s.homeRead a p.key 0 p.len
    let (g, s) := if p.cas then s.sigLookup a else (0, s)
    s.sendFree { s.answerTo p .response with addr := p.addr, len := p.len, data := bs.mapIdx (fun k b => (k, b)), sig := g }

/-- The bytes of a write performed at their home, in replacement class 0 (log 97); a release leaves its signature at every
sector it writes (R167, R176). -/
def performWrite (s : State) (p : Packet) (rel : Bool) : State :=
  let a := s.redirected p.addr
  let s := s.homePatch a p.key 0 p.data
  if rel then ((p.data.map fun b => (a + b.1) / 32).dedup).foldl (fun (s : State) k => s.sigRecord (32 * k) p.sig) s else s

/-- Whether a write must wait for the twin of its page (R364), or for a key load (R359). -/
def packetHeld (s : State) (p : Packet) : Bool := s.homeHeld (s.redirected p.addr) p.key

/-! ### Ordered streams (R185, R186) -/

/-- Whether a packet belongs to a stream. -/
def streamIs (p : Packet) (t : DStream) : Bool :=
  t.sfid == p.sfid && t.sinc == p.sinc && t.score == p.score && t.swarp == p.swarp && t.serial == p.serial

/-- The stream of a packet known to the package. -/
def openStream (s : State) (p : Packet) : State :=
  if s.fab.streams.any (streamIs p) then s
  else
    let t : DStream := { sfid := p.sfid, sinc := p.sinc, score := p.score, swarp := p.swarp, serial := p.serial, count := 0,
                         entry := false, close := none, since := s.clock }
    s.modFab fun f => { f with streams := f.streams ++ [t] }

/-- A write of a stream counted; engine writes belong to none (R185). -/
def countStream (s : State) (p : Packet) : State :=
  if !p.stream then s
  else
    let up := fun (t : DStream) => if streamIs p t then { t with count := t.count + 1, since := s.clock } else t
    (s.openStream p).modFab fun f => { f with streams := f.streams.map up }

/-- Entries of the stream table and of the flag reorder buffer. -/
def streamTable : Nat := 4096
def flagBuffer : Nat := 1024

/-- Streams without an entry take one, oldest first, while the table has room. -/
def giveEntries (s : State) : State :=
  let give := fun (a : List DStream × Nat) (t : DStream) =>
    if t.entry then (a.1 ++ [t], a.2)
    else if a.2 = 0 then (a.1 ++ [t], 0)
    else (a.1 ++ [{ t with entry := true }], a.2 - 1)
  s.modFab fun f =>
    { f with streams := (f.streams.foldl give ([], streamTable - (f.streams.filter DStream.entry).length)).1 }

/-- Flags at the ingress whose streams have an entry enter the reorder buffer, oldest first, while it has room. -/
def admitFlags (s : State) : State :=
  let takeIn := fun (a : List HeldFlag × Nat) (h : HeldFlag) =>
    if !h.waiting || a.2 = 0 || !(s.fab.streams.any fun t => streamIs h.pkt t && t.entry) then (a.1 ++ [h], a.2)
    else (a.1 ++ [{ h with waiting := false, since := s.clock }], a.2 - 1)
  s.modFab fun f =>
    { f with flags := (f.flags.foldl takeIn ([], flagBuffer - (f.flags.filter fun h => !h.waiting).length)).1 }

/-- Whether the writes sent before a held flag have performed. -/
def flagReady (s : State) (h : HeldFlag) : Bool :=
  !h.waiting && (s.fab.streams.any fun t => streamIs h.pkt t && h.pkt.ofcnt ≤ t.count) && !s.packetHeld h.pkt

/-- The first held flag that may perform, performed and acknowledged (R176, R186). -/
def commitFlag (s : State) : State :=
  match s.fab.flags.find? s.flagReady with
  | none => s
  | some h =>
    let s := s.modFab fun f => { f with flags := f.flags.erase h }
    ((s.performWrite h.pkt true).countStream h.pkt).sendAck h.pkt

/-- Streams whose close has come and whose writes have all performed, forgotten. -/
def freeStreams (s : State) : State :=
  s.modFab fun f => { f with streams := f.streams.filter fun t =>
    !((t.close.any fun n => decide (n ≤ t.count)) && !(f.flags.any fun h => streamIs h.pkt t)) }

/-- Everything that the counts of the streams now allow. -/
def pumpStreams : Nat → State → State
  | 0, s => s
  | fuel + 1, s => pumpStreams fuel (((s.giveEntries).admitFlags).commitFlag).freeStreams

/-- The same, with fuel for every flag and stream held. -/
def pump (s : State) : State := pumpStreams (2 * s.fab.flags.length + s.fab.streams.length + 1) s

/-- Row WRITE (R182): it performs at the home, is counted and acknowledged. -/
def serveWrite (s : State) (p : Packet) : State :=
  if s.packetHeld p then s
  else ((((s.performWrite p (p.tag % 2 == 1)).countStream p).sendAck p)).pump

/-- An atomic packet performed: one access at the home, in replacement class 0 (log 97); a `RED` is acknowledged, an atomic
answered with the value it found (R184, R298). -/
def performAtomic (s : State) (p : Packet) : State :=
  let a := s.redirected p.addr
  let n := if p.wide then 8 else 4
  let (g, s) := if field p.tag 1 1 = 1 then s.sigLookup a else (0, s)
  let (old, s) := s.homeNat a p.key 0 n
  let new := match p.atom with
    | some op => atomResult op p.wide old p.opnd
    | none => if old = p.opnd2 then p.opnd else old
  let s := s.homeWrite a p.key 0 (leBytes n new)
  let s := if p.tag % 2 = 1 then s.sigRecord a p.sig else s
  let s := s.countStream p
  if field p.tag 2 1 = 1 then s.sendAck p
  else s.sendFree { s.answerTo p .response with addr := p.addr, len := n, data := (leBytes n old).mapIdx (fun k b => (k, b)), sig := g }

/-- Whether two packets carry lanes of one atomic. -/
def sameTrain (p q : Packet) : Bool := p.sfid == q.sfid && p.sinc == q.sinc && p.train == q.train

/-- Row ATOMIC_OR_RED. The lanes of an atomic that are not combined come one by one, and the home performs them together in that
order, with no other access to their address between (R184). -/
def serveAtomic (s : State) (p : Packet) : State :=
  if s.packetHeld p then s
  else if p.more then s.modFab fun f => { f with atomLanes := f.atomLanes ++ [p] }
  else
    let group := s.fab.atomLanes.filter fun q => p.train != 0 && sameTrain p q
    let s := s.modFab fun f => { f with atomLanes := f.atomLanes.filter fun q => !(p.train != 0 && sameTrain p q) }
    ((group ++ [p]).foldl (fun (s : State) q => s.performAtomic q) s).pump

/-- Row ORDERED_FLAG_WRITE (R186). -/
def takeFlag (s : State) (p : Packet) : State :=
  ((s.openStream p).modFab fun f => { f with flags := f.flags ++ [{ pkt := p, since := s.clock, waiting := true }] }).pump

/-- Row STREAM_CLOSE (R186). -/
def takeClose (s : State) (p : Packet) : State :=
  let mark := fun (t : DStream) => if streamIs p t then { t with close := some p.ofcnt } else t
  ((s.openStream p).modFab fun f => { f with streams := f.streams.map mark }).pump

/-- The remote timeout in cycles (Table 25-2). -/
def timeout (s : State) : Nat := 2 ^ s.host.ftmo

/-- Row FLAG_HOLD_TIMEOUT: a flag held too long without its count is discarded (R417). -/
def flagTimeout (s : State) (k : Nat) : State :=
  match s.fab.flags[k]? with
  | none => s
  | some h =>
    if h.waiting || s.clock < h.since + s.timeout || s.fab.streams.any (fun t => streamIs h.pkt t && h.pkt.ofcnt ≤ t.count) then s
    else ((s.modFab fun f => { f with flags := f.flags.eraseIdx k }).modHost fun h => { h with flagdrop := satInc h.flagdrop }).pump

/-- Row STREAM_ENTRY_CLOSE_TIMEOUT: an entry that has waited too long for its close is freed (R417). -/
def streamTimeout (s : State) (k : Nat) : State :=
  match s.fab.streams[k]? with
  | none => s
  | some t =>
    if !t.entry || s.clock < t.since + s.timeout then s
    else (s.modFab fun f => { f with streams := f.streams.eraseIdx k }).pump

/-! ### Answers (R73, R182, R183, R304) -/

/-- The bytes that a read of a load brought, bound in its lane (R73, R74): bytes of older stores of the warp stand over them,
and a plain load's bytes may be placed in the L1. -/
def bindRemote (s : State) (w : WarpId) (id : Nat) (r : Req) (p : Packet) : State :=
  match (s.warp? w).bind fun x => (x.loads.find? fun l => l.id == id).map fun l => (x.core, l) with
  | none => s
  | some (c, l) =>
    match r.lanes.head?.bind fun k => l.accs.find? fun a => a.lane == k.1 with
    | none => s
    | some a =>
      let bs := p.data.map (·.2)
      let s := match a.loc with
        | .remote fid ad key =>
          if l.acq.isSome then s.l1Drop c (lineName fid ad) key
          else if r.serial = 0 then s.l1Merge c (lineName fid ad) key (bs.mapIdx fun k b => (ad % 128 + k, b))
          else s
        | _ => s
      (s.bindLane w id a.lane (overlay bs r.fwd) p.sig).finishLoad w id

/-- The value that an atomic of a warp fetched, rebuilt for each of its lanes (R184). -/
def bindAtomic (s : State) (w : WarpId) (id : Nat) (r : Req) (old : Nat) (g : Sig) : State :=
  match (s.warp? w).bind fun x => (x.stores.find? fun o => o.id == id).map fun o => (x.core, o) with
  | none => s
  | some (c, o) =>
    let group := o.accs.filter fun q => r.lanes.any fun k => k.1 == q.acc.lane
    match group with
    | [] => s
    | q :: _ =>
      let s := match q.acc.loc with
        | .remote fid ad key => s.l1Drop c (lineName fid ad) key
        | _ => s
      (s.bindFetched w o q.acc.len (atomRun o group old).2 g).finishLoad w id

/-- The words of a line that a read-only cache asked for (R114, R226), unless the cache has been emptied since. -/
def fillCache (s : State) (c : Nat) (code : Bool) (r : Req) (bs : List Byte) : State :=
  let at' := fun k => cacheKey (some r.fid) (r.va + k) r.slot
  if r.serial = 1 then s
  else if code then
    s.modCore c fun x => { x with codeCache := (List.range (bs.length / 8)).foldl (fun (m : AMap DWord) k =>
      amSet m (at' (8 * k)) (BitVec.ofNat 64 (bytesNat bs (8 * k) 8))) x.codeCache }
  else
    s.modCore c fun x => { x with constCache := (List.range (bs.length / 4)).foldl (fun (m : AMap Word) k =>
      s.constPut m (at' (4 * k)) (BitVec.ofNat 32 (bytesNat bs (4 * k) 4))) x.constCache }

/-- Bytes of a `GET` written at their destination, as they came or as all ones (R304, R416). Where they must wait the request
stays, and a page they wait for has been asked for. -/
def getLand (s : State) (w : WarpId) (id : Nat) (r : Req) (bs : List Byte) : State :=
  match (s.warp? w).bind fun x => x.copies.find? fun o => o.id == id, r.reads with
  | some o, row :: _ =>
    if o.stage = .landed then s.dropReq r
    else
      match s.engRange w id o.ds row.dst row.len true none with
      | (.ok dst, s) => (s.dropReq r).engPuts w dst bs
      | (.hold, s) => s
      | (e, s) => ((s.dropReq r).modCopy w id fun c => { c with stage := .issued, rows := c.rows ++ [row] }).copyStop w o true e
  | _, _ => s.dropReq r

/-- The issuing core's copies of the line that a `PUT` packet wrote, dropped as it lands (step 5 of R303). -/
def putLand (s : State) (r : Req) : State :=
  match r.kind == .write, r.pin with
  | true, some line => (s.noFill r.core).modCore r.core fun c => { c with l1 := c.l1.filter fun e => e.line != line }
  | _, _ => s

/-- Row READ_OR_ATOMIC_RESPONSE: whoever waits for the bytes gets them. One that comes after its request has timed out is
dropped (R415). -/
def takeResponse (s : State) (p : Packet) : State :=
  let bs := p.data.map (·.2)
  match s.reqOf p.req p.sfid with
  | none => s
  | some r =>
    match r.owner with
    | .load w id => (s.dropReq r).bindRemote w id r p
    | .store w id => ((s.dropReq r).bindAtomic w id r (leNat bs) p.sig).finishStore w id
    | .copy w id => s.getLand w id r bs
    | .merge w id unit =>
      let s := s.dropReq r
      if ((s.warp? w).bind fun x => skOpOf x id).any fun o => o.units == unit then s.mergeApply w id bs else s
    | .carter _ _ => s.dropReq r
    | .cache c code => (s.dropReq r).fillCache c code r bs
    | .prefetch c =>
      let s := s.dropReq r
      if r.serial = 0 then s.l1Merge c (lineName r.fid r.va) r.slot (bs.mapIdx fun k b => (k, b)) else s
    | .fetch w id => (s.dropReq r).modFab fun f => { f with inbox := f.inbox ++ [{ p with tag := wkey w, ofcnt := id, addr := r.va }] }
    | .nobody => s.dropReq r

/-- Row ACKNOWLEDGEMENT (R183, R232, R365). -/
def takeAck (s : State) (p : Packet) : State :=
  match s.reqOf p.req p.sfid with
  | none => s
  | some r =>
    let s := s.dropReq r
    match r.owner with
    | .store w id => (s.finishLoad w id).finishStore w id
    | .copy _ _ => s.putLand r
    | .carter part page => s.carterAnswer part page true
    | _ => s

/-- Row NEGATIVE_ACKNOWLEDGEMENT (R419, R420): it counts as an acknowledgement, and a refused multicast sets LNAK. -/
def takeNack (s : State) (p : Packet) : State :=
  match s.reqOf p.req p.sfid with
  | none => s
  | some r =>
    let s := s.takeAck p
    match r.kind == .multicast, ownerWarp r.owner with
    | true, some w => s.setFstat w.team 1
    | _, _ => s

/-! ### Timeouts (R415 to R417) -/

/-- The record of a write that timed out. -/
def lostRecord (s : State) (w : WarpId) (pc : Nat) (word : DWord) (mask : Mask) (r : Req) : State :=
  let va := r.kind == .write || r.kind == .atomic || r.kind == .orderedFlag
  s.postEvent (s.ctxOf w.team) { TrapRec.zero with
    code := 0x10, sub := 0x41, addrv := va, addr := if va then r.va else 0, aux := r.fid, widx := w.widx, pcore := r.core
    pc := pc, insn := word, mask := mask }

/-- A write of a store given up: it counts as acknowledged, and the first of the instruction to its package is
reported (R417). -/
def loseStore (s : State) (w : WarpId) (id : Nat) (r : Req) : State :=
  match (s.warp? w).bind fun x => x.stores.find? fun o => o.id == id with
  | none => s
  | some o =>
    if o.lost.contains r.fid then s
    else (s.lostRecord w 0 0 0 r).modWarp w fun x => { x with stores := x.stores.map fun (k : StoreOp) =>
      if k.id = id then { k with lost := k.lost ++ [r.fid] } else k }

/-- The same for a write of an engine operation, a message or a multicast. -/
def loseCopy (s : State) (w : WarpId) (id : Nat) (r : Req) : State :=
  match (s.warp? w).bind fun x => x.copies.find? fun o => o.id == id with
  | none => s
  | some o =>
    if o.lost.contains r.fid then s
    else (s.lostRecord w o.pc o.word o.mask r).modCopy w id fun c => { c with lost := c.lost ++ [r.fid] }

/-- All ones for the lanes of an atomic that fetches (R416). -/
def loseFetched (s : State) (w : WarpId) (id : Nat) (r : Req) : State :=
  match (s.warp? w).bind fun x => x.loads.find? fun l => l.id == id with
  | none => s
  | some l =>
    (r.lanes.foldl (fun (s : State) k => s.bindLane w id k.1 (List.replicate (4 * l.dsts.length) 0xFF) 0)
      (s.setFstat w.team 0)).finishLoad w id

/-- A load's lane given up: all ones in every byte of its width, and RTO (R416). -/
def loseLoad (s : State) (w : WarpId) (id : Nat) (r : Req) : State :=
  match (s.warp? w).bind fun x => x.loads.find? fun l => l.id == id with
  | none => s
  | some l =>
    match r.lanes.head?.bind fun k => l.accs.find? fun a => a.lane == k.1 with
    | none => s
    | some a => ((s.setFstat w.team 0).bindLane w id a.lane (List.replicate a.len 0xFF) 0).finishLoad w id

/-- A unit of a merge given up: the destination's stays unmerged, and RTO is set (R416). Past the last unit the source's
fields count as those of an empty region. -/
def loseUnit (s : State) (w : WarpId) (id : Nat) : State :=
  match (s.warp? w).bind fun x => skOpOf x id with
  | none => s
  | some o =>
    let s := s.setFstat w.team 0
    if o.units + 1 < o.total then s.modSk w id fun k => { k with units := k.units + 1 }
    else s.mergeApply w id ((List.replicate 64 (0 : Byte)).set 3 4)

/-- A line for a core's read-only cache given up: the warps that wait for a word of it read all ones, and RTO is set (R416). A
clause word is asked for again (log 73). -/
def loseCached (s : State) (r : Req) : State :=
  r.lanes.foldl (fun (s : State) k =>
    (s.setFstat (widOf k.1).team 0).modWarp (widOf k.1) fun x =>
      { x with lostWords := x.lostWords ++ [cacheKey (some r.fid) r.va r.slot] }) s

/-- Row REMOTE_TIMEOUT: a request unanswered for 2^FTMO cycles since its packet left is given up. -/
def remoteTimeout (s : State) (id : Nat) : State :=
  match s.fab.reqs.find? fun r => r.id == id && r.out with
  | none => s
  | some r =>
    if s.clock < r.sent + s.timeout then s
    else
      match r.owner with
      | .load w k => (s.dropReq r).loseLoad w k r
      | .store w k =>
        let s := s.dropReq r
        let fetches := r.kind == .atomic && (s.warp? w).any fun x => x.stores.any fun o => o.id == k && !isRed o.kind
        let s := if fetches then s.loseFetched w k r else s.loseStore w k r
        (s.finishLoad w k).finishStore w k
      | .copy w k =>
        if r.kind = .readReq then
          (s.setFstat w.team 0).getLand w k r (List.replicate (((r.reads.map CopyRow.len).head?).getD 0) 0xFF)
        else ((s.loseCopy w k r).dropReq r).putLand r
      | .merge w k unit =>
        let s := s.dropReq r
        if ((s.warp? w).bind fun x => skOpOf x k).any fun o => o.units == unit then s.loseUnit w k else s
      | .carter part page => (s.dropReq r).carterAnswer part page false
      | .cache _ _ => (s.dropReq r).loseCached r
      | .prefetch _ => s.dropReq r
      | .fetch _ _ => s.dropReq r
      | .nobody => s.dropReq r
end State

end Sys2Proof.Machine
end

