-- ==== Sys2Proof/Machine/Deliver.lean ====
section
/-! DEFINITION. Messages (R188 to R192, R420), multicast deliveries (R194, R419), collective chunks (R199 to R203) and trees
(R204, R421). -/

namespace Sys2Proof.Machine

/-! ### The switches' arithmetic (R202) -/

/-- The element format of CFMT: its encoding and its bytes. -/
def chunkFmt (cfmt : Nat) : Fmt × Nat := if cfmt = 1 then (fmtF16, 2) else if cfmt = 2 then (fmtBF16, 2) else (fmtF32, 4)

/-- An element as FP32, exactly; a NaN as the canonical one. -/
def chunkIn (cfmt x : Nat) : Nat := if cfmt = 0 then x else fmtF32.round .rn false ((chunkFmt cfmt).1.value x)

/-- Two partial results combined in FP32 by COP: sum, maximum, minimum. -/
def chunkOp (cop a b : Nat) : Nat :=
  match cop with
  | 0 => fmtF32.round .rn false ((fmtF32.value a).add false (fmtF32.value b))
  | 1 => fmtF32.maxOf a b
  | _ => fmtF32.minEnc a b

/-- The final value as the destination's leaf delivers it. -/
def chunkOut (cfmt x : Nat) : Nat := if cfmt = 0 then x else (chunkFmt cfmt).1.round .rn false (fmtF32.value x)

/-- Partial results combined in order. -/
def chunkFold (cop : Nat) : List Nat → Nat
  | [] => 0
  | x :: l => l.foldl (chunkOp cop) x

/-- The chunk that the switches deliver: each leaf switch combines its members' chunks, the spine the leaves' results. -/
def combineChunks (cop cfmt n : Nat) (parts : List (List (List Byte))) : List Byte :=
  let w := (chunkFmt cfmt).2
  (List.range (n / w)).flatMap fun k =>
    let leaf := fun (l : List (List Byte)) => chunkFold cop (l.map fun bs => chunkIn cfmt (bytesNat bs (w * k) w))
    leBytes w (chunkOut cfmt (chunkFold cop ((parts.filter fun l => !l.isEmpty).map leaf)))

/-- Whether numbers rise strictly. -/
def rising : List Nat → Bool
  | [] => true
  | [_] => true
  | a :: b :: l => a < b && rising (b :: l)

/-- Whether contributions stand in ascending port order at every switch, as deterministic mode has them added (R202). -/
def inPortOrder (parts : List (Nat × List (Nat × List Byte))) : Bool :=
  rising (parts.map (·.1)) && parts.all fun l => rising (l.2.map (·.1))

namespace State

/-! ### Messages -/

/-- Every posted receive of a context's teams: team, slot. -/
def postings (s : State) : List (Nat × Nat × RSlot) :=
  s.teams.flatMap fun t => if t.2.status = .exited then [] else t.2.rslots.map fun r => (t.1, r.1, r.2)

/-- The oldest posting that an arrival matches (R188). -/
def matchOf (s : State) (p : Packet) : Option (Nat × Nat × RSlot) :=
  (s.postings.filter fun q => matches' q.2.2 p).foldl (fun (b : Option (Nat × Nat × RSlot)) q =>
    match b with
    | none => some q
    | some d => if q.2.2.order < d.2.2.order then some q else some d) none

/-- A message arrival dropped and refused (R420). -/
def dropMessage (s : State) (p : Packet) : State :=
  (s.modHost fun h => { h with msgdrop := satInc h.msgdrop }).sendNack p

/-- A message matched, queued or dropped (R188 to R190, R420); none while its buffer's page holds it (R364). -/
def matchMessage (s : State) (p : Packet) : Option State :=
  if !(s.ctx p.ctx).v then some (s.dropMessage p)
  else
    match s.matchOf p with
    | some (t, k, r) =>
      if s.ctxHeld r.ctx r.buf p.data.length then none else some ((s.deliver t k r p).sendAck p)
    | none =>
      if s.fab.overflow.length < 256 then some ((s.modFab fun f => { f with overflow := f.overflow ++ [p] }).sendAck p)
      else some ((s.dropMessage p).postEvent p.ctx { TrapRec.zero with code := 0x30, aux := 2 ^ 32 * p.sfid + p.tag })

/-- Whether two messages come from one sending warp. -/
def sameSender (p q : Packet) : Bool := p.sfid == q.sfid && p.sinc == q.sinc && p.opnd2 == q.opnd2

/-- The count that the next message of a sender carries (R192). -/
def nextCount (s : State) (p : Packet) : Nat :=
  ((s.fab.msgNext.find? fun m => m.1 == p.sfid && m.2.1 == p.sinc && m.2.2.1 == p.opnd2).map fun m => m.2.2.2).getD 0

/-- The count after a message taken. -/
def setNext (s : State) (p : Packet) : State :=
  s.modFab fun f => { f with msgNext :=
    (f.msgNext.filter fun m => !(m.1 == p.sfid && m.2.1 == p.sinc && m.2.2.1 == p.opnd2)) ++
      [(p.sfid, p.sinc, p.opnd2, (p.ofcnt + 1) % 2 ^ 24)] }

/-- Whether a held message may be taken: every earlier one of its sender has been, or one that has not come has kept it
waiting for a whole remote timeout. -/
def messageDue (s : State) (p : Packet) : Bool :=
  p.ofcnt == s.nextCount p ||
    (p.opnd + s.timeout ≤ s.clock && !(s.fab.msgHeld.any fun q => sameSender p q && q.ofcnt < p.ofcnt))

/-- Held messages taken in their senders' order, as far as they can be. -/
def pumpMessages : Nat → State → State
  | 0, s => s
  | fuel + 1, s =>
    match s.fab.msgHeld.find? s.messageDue with
    | none => s
    | some p =>
      match s.matchMessage p with
      | none => s
      | some s' => pumpMessages fuel ((s'.setNext p).modFab fun f => { f with msgHeld := f.msgHeld.erase p })

/-- Row MESSAGE (R188, R192). -/
def takeMessage (s : State) (p : Packet) : State :=
  if p.opnd2 = 0 then (s.matchMessage p).getD s
  else
    let s := s.modFab fun f => { f with msgHeld := f.msgHeld ++ [{ p with opnd := s.clock }] }
    pumpMessages s.fab.msgHeld.length s

/-! ### Multicast (R194, R419) -/

/-- The bytes of a delivery, or of a chunk, that have come, by the three numbers that name it. -/
def partsOf (l : List (Nat × Nat × Nat × Nat)) (a b c : Nat) : Nat :=
  ((l.find? fun e => e.1 == a && e.2.1 == b && e.2.2.1 == c).map fun e => e.2.2.2).getD 0

/-- The same with more bytes come, out of a total; an entry that is complete is dropped. -/
def addParts (l : List (Nat × Nat × Nat × Nat)) (a b c n total : Nat) : List (Nat × Nat × Nat × Nat) :=
  let now := partsOf l a b c + n
  let rest := l.filter fun e => !(e.1 == a && e.2.1 == b && e.2.2.1 == c)
  if now ≥ total then rest else rest ++ [(a, b, c, now)]

/-- Whether a packet belongs to a delivery of which others have come. -/
def partKnown (l : List (Nat × Nat × Nat × Nat)) (p : Packet) : Bool :=
  l.any fun e => e.1 == p.opnd && e.2.1 == p.sfid && e.2.2.1 == p.train

/-- The registration that takes a delivery (R194, R419): one open to it, or closed since the delivery began (R195), that holds
all of it. -/
def landingOf (s : State) (p : Packet) : Option Landing :=
  if partKnown s.fab.refusedMcast p then none
  else s.fab.landings.find? fun l => l.ctx == p.ctx && l.ident == p.tag && (!l.closed || partKnown l.begun p) &&
    p.addr - p.pos + p.len ≤ l.len

/-- Row MULTICAST_DELIVERY: a packet of a delivery, written where it belongs; once the whole delivery has landed the counter
rises. Bytes whose page is absent or refuses the write are skipped (log 98). -/
def takeMulticast (s : State) (p : Packet) : State :=
  let n := p.data.length
  if (s.treeOf p.opnd).all Tree.broken then s
  else
    match s.landingOf p with
    | none => (s.modFab fun f => { f with refusedMcast := addParts f.refusedMcast p.opnd p.sfid p.train n p.len }).sendNack p
    | some l =>
      if s.ctxHeld l.ctx (l.buf + p.addr) n then s
      else
        let whole := decide (p.len ≤ partsOf l.begun p.opnd p.sfid p.train + n)
        let s := (s.ctxWrite l.ctx (l.buf + p.addr) (p.data.map (·.2))).modFab fun f => { f with
          landings := f.landings.map fun (d : Landing) => if d.ctx = l.ctx && d.ident = l.ident then
            { d with begun := addParts d.begun p.opnd p.sfid p.train n p.len } else d }
        let s := match whole, l.ctr with
          | true, some c => s.trigAdd c 1 none
          | _, _ => s
        s.sendAck p

/-! ### Collective chunks (R199, R201, R203) -/

/-- The completion counter of a tree, raised over every step that has reached zero. -/
def advance (zeros : List Nat) : Nat → Nat → Nat
  | 0, cmp => cmp
  | fuel + 1, cmp => if zeros.contains (cmp + 1) then advance zeros fuel (cmp + 1) else cmp

/-- A step of a tree complete on this package. A snapshot that waits for it is cut in that instant (R362). -/
def stepDone (s : State) (tree step : Nat) : State :=
  let up := fun (t : Tree) =>
    let zeros := addOffs t.zeroSteps [step]
    let cmp := advance zeros zeros.length t.cmp
    if t.ident = tree then { t with cmp := cmp, zeroSteps := zeros.filter fun k => decide (cmp < k) } else t
  (List.range 8).foldl (fun (s : State) p => s.snapshotCut p) (s.modFab fun f => { f with trees := f.trees.map up })

/-- The bound grid that a reduced chunk belongs to: the last one started at its step. -/
def chunkGrid (s : State) (tree step : Nat) : Option (Nat × Grid) :=
  s.grids.reverse.find? fun g => g.2.cben && g.2.tree == tree && g.2.step == step && g.2.started

/-- Row COLLECTIVE_CHUNK: a packet of a reduced chunk is written at its place; once the whole chunk has landed the counter falls
by one, firing nothing; at zero the reduce grid is launched. Bytes whose page is absent or refuses the write are skipped
(log 99). -/
def takeChunk (s : State) (p : Packet) : State :=
  match (s.treeOf p.opnd).all Tree.broken, s.chunkGrid p.opnd p.tag with
  | false, some (gi, g) =>
    let va := g.rbase + p.addr * g.chunk + p.pos
    let k := p.data.length
    if s.ctxHeld g.ctx va k then s
    else
      let whole := decide (g.chunk ≤ partsOf s.fab.chunkParts p.opnd p.tag p.addr + k)
      let s := (s.ctxWrite g.ctx va (p.data.map (·.2))).modFab fun f =>
        { f with chunkParts := addParts f.chunkParts p.opnd p.tag p.addr k g.chunk }
      if !whole then s
      else
        let n := clamp64 (s.trigGet g.ctrg - 1)
        let s := s.trigSet g.ctrg n
        if n = 0 then ((s.stepDone p.opnd p.tag).modFab fun f => { f with reduces := f.reduces ++ [gi] }).slotFreed else s
  | _, _ => s

/-- What the switches deliver for a chunk of every member (R202), as the bound grid's COP and CFMT say: `parts` gives each leaf
switch its port of the spine and, with their ports, the chunks that it adds. Every member's chunk is there, this package's has
left, and in deterministic mode every switch adds in ascending port order (R221, R222). -/
def switchReduce (s : State) (tree step idx : Nat) (parts : List (Nat × List (Nat × List Byte))) : State :=
  match s.chunkGrid tree step, s.treeOf tree with
  | some (_, g), some t =>
    if (parts.flatMap (·.2)).length ≠ t.members.length || !g.sent.contains idx || s.chunkQueued tree step idx ||
        (g.det && !inPortOrder parts) || s.ctxHeld g.ctx (g.rbase + idx * g.chunk) g.chunk then s
    else
      (payloads (combineChunks g.cop g.cfmt g.chunk (parts.map fun l => l.2.map (·.2)))).foldl (fun (s : State) q =>
        s.takeChunk { s.packetTo .chunk s.fab.fid with
          tag := step, addr := idx, opnd := tree, len := g.chunk, more := q.2.1, pos := q.1
          data := q.2.2.mapIdx fun k b => (k, b) }) s
  | _, _ => s

/-! ### Trees (R203, R204, R421) -/

/-- A tree that this package is a member of comes into being, with fresh counters (R203). -/
def joinTree (s : State) (tree : Nat) (members : List Nat) : State :=
  s.modFab fun f => { f with trees := (f.trees.filter fun t => t.ident != tree) ++
    [{ ident := tree, members := members, broken := false, asg := 1, cmp := 0, zeroSteps := [] }] }

/-- Whether a packet carries a chunk or a delivery of a tree. -/
def ofTree (tree : Nat) (p : Packet) : Bool := (p.kind == .chunk || p.kind == .multicast) && p.opnd == tree

/-- Whether a chunk or a delivery of a tree is in flight (R204): queued here, unacknowledged, or partly landed. -/
def treeBusy (s : State) (tree : Nat) : Bool :=
  (s.fab.links.any fun l => l.2.any (ofTree tree)) || (s.fab.chunkParts.any fun e => e.1 == tree) ||
  (s.fab.landings.any fun l => l.begun.any fun e => e.1 == tree) ||
  s.fab.reqs.any fun r => r.kind == .multicast && match r.owner with
    | .copy w id => (s.warp? w).any fun x => x.copies.any fun o => o.id == id && match o.kind with
      | .mcast t _ _ => t == tree
      | _ => false
    | _ => false

/-- A tree released. -/
def leaveTree (s : State) (tree : Nat) : State := s.modFab fun f => { f with trees := f.trees.filter fun t => t.ident != tree }

/-- Contexts with a grid bound to a tree. -/
def boundCtxs (s : State) (tree : Nat) : List Nat :=
  ((s.grids.filter fun g => g.2.cben && g.2.tree == tree && !g.2.retired).map fun g => g.2.ctx).dedup

/-- Row TREE_BREAK (R421): the tree's chunks and deliveries on their way are discarded, and each context with a bound grid
learns of it. What the sender waits for then times out (R417). -/
def treeBreak (s : State) (tree : Nat) : State :=
  if (s.treeOf tree).all Tree.broken then s
  else
    let gone := (s.fab.links.flatMap (·.2)).filter (ofTree tree)
    let other := fun (e : Nat × Nat × Nat × Nat) => e.1 != tree
    let s := (gone.foldl (fun (s : State) p => if p.kind = .multicast then s.departed p.req else s) s).modFab fun f => { f with
      trees := f.trees.map fun (t : Tree) => { t with broken := t.broken || t.ident == tree }
      links := f.links.map fun l => (l.1, l.2.filter fun p => !ofTree tree p)
      landings := f.landings.map fun (l : Landing) => { l with begun := l.begun.filter other }
      chunkParts := f.chunkParts.filter other
      refusedMcast := f.refusedMcast.filter other }
    (s.boundCtxs tree).foldl (fun (s : State) c => s.postEvent c { TrapRec.zero with code := 0x31, aux := tree }) s

/-- The fields of TRQCTL that a write leaves in it (R4, Table 22-2); GO reads 0 afterwards (log 91). -/
def trqFields (w : DWord) (h : HostRegs) : HostRegs :=
  { h with trqOp := field w.toNat 60 2, trqCount := field w.toNat 32 16, trqTree := w.toNat % 65536 }

/-- Row TREE_CREATE: a write of TRQCTL that asks for a tree (R204, R351). A write without GO starts nothing; one with GO while a
request is under way is ignored. -/
def treeCreate (s : State) (w : DWord) : State :=
  if !s.ready.fabric || field w.toNat 60 2 ≠ 1 || (w.getLsbD 63 && s.host.trqBusy) then s
  else if !w.getLsbD 63 then s.modHost (trqFields w)
  else
    let n := field w.toNat 32 16
    let (l, s) := s.devRead s.host.trqlist (2 * n)
    s.modHost fun h => { trqFields w h with
      trqBusy := true, trqReq := (1, 0), trqMembers := (List.range n).map fun k => bytesNat l (2 * k) 2 % 8192 }

/-- Row TREE_RELEASE: a write of TRQCTL that releases a tree; a broken one is gone at once (R421). A write with a reserved
operation starts nothing. -/
def treeRelease (s : State) (w : DWord) : State :=
  if !s.ready.fabric || field w.toNat 60 2 = 1 || (w.getLsbD 63 && s.host.trqBusy) then s
  else if !w.getLsbD 63 || field w.toNat 60 2 ≠ 2 then s.modHost (trqFields w)
  else
    let tree := w.toNat % 65536
    if (s.treeOf tree).any Tree.broken then (s.leaveTree tree).modHost fun h => { trqFields w h with trqstat := 2 ^ 16 * tree }
    else s.modHost fun h => { trqFields w h with trqBusy := true, trqReq := (2, tree), trqMembers := [] }

/-- Row TREE_REQUEST_STATUS: the request under way ends (R204); a release ends once nothing of the tree is in flight. -/
def treeStatus (s : State) (status tree : Nat) : State :=
  let op := s.host.trqReq.1
  if !s.host.trqBusy || (op ≠ 1 && status = 0 && s.treeBusy s.host.trqReq.2) then s
  else
    let tree := if op = 1 then tree % 65536 else s.host.trqReq.2
    let members := s.host.trqMembers
    let s := s.modHost fun h => { h with trqBusy := false, trqstat := 2 ^ 16 * tree + status % 16 }
    if status ≠ 0 then s
    else if op ≠ 1 then s.leaveTree tree
    else if members.contains s.fab.fid then s.joinTree tree members
    else s

end State

end Sys2Proof.Machine
end

