-- ==== Sys2Proof/Machine/FabricEvents.lean ====
section
/-! DEFINITION. Events of the fabric. A packet of another incarnation is dropped and counted (R418); an event whose condition
does not hold changes nothing. -/

namespace Sys2Proof.Machine

/-- `READ_REQUEST` (R181). -/
def execReadRequest (p : Packet) (s : State) : Host.Outcome State Fault Refusal := .next (s.accept p .readReq fun s => s.serveRead p)

/-- `WRITE` (R181, R182, R186). -/
def execWrite (p : Packet) (s : State) : Host.Outcome State Fault Refusal := .next (s.accept p .write fun s => s.serveWrite p)

/-- `ATOMIC_OR_RED` (R181, R184). -/
def execAtomicOrRed (p : Packet) (s : State) : Host.Outcome State Fault Refusal := .next (s.accept p .atomic fun s => s.serveAtomic p)

/-- `READ_OR_ATOMIC_RESPONSE` (R73, R184, R415). -/
def execReadOrAtomicResponse (p : Packet) (s : State) : Host.Outcome State Fault Refusal :=
  .next (s.accept p .response fun s => s.takeResponse p)

/-- `ACKNOWLEDGEMENT` (R180, R183). -/
def execAcknowledgement (p : Packet) (s : State) : Host.Outcome State Fault Refusal := .next (s.accept p .ack fun s => s.takeAck p)

/-- `ORDERED_FLAG_WRITE` (R176, R186). -/
def execOrderedFlagWrite (p : Packet) (s : State) : Host.Outcome State Fault Refusal :=
  .next (s.accept p .orderedFlag fun s => s.takeFlag p)

/-- `STREAM_CLOSE` (R186). -/
def execStreamClose (p : Packet) (s : State) : Host.Outcome State Fault Refusal := .next (s.accept p .streamClose fun s => s.takeClose p)

/-- `MESSAGE` (R188 to R192, R420). -/
def execMessage (p : Packet) (s : State) : Host.Outcome State Fault Refusal := .next (s.accept p .message fun s => s.takeMessage p)

/-- `MULTICAST_DELIVERY` (R194, R419). -/
def execMulticastDelivery (p : Packet) (s : State) : Host.Outcome State Fault Refusal :=
  .next (s.accept p .multicast fun s => s.takeMulticast p)

/-- `COLLECTIVE_CHUNK` (R199, R201, R203). -/
def execCollectiveChunk (p : Packet) (s : State) : Host.Outcome State Fault Refusal := .next (s.accept p .chunk fun s => s.takeChunk p)

/-- `NEGATIVE_ACKNOWLEDGEMENT` (R419, R420). -/
def execNegativeAcknowledgement (p : Packet) (s : State) : Host.Outcome State Fault Refusal :=
  .next (s.accept p .nack fun s => s.takeNack p)

/-- `REMOTE_TIMEOUT` (R415 to R417, R423). -/
def execRemoteTimeout (req : Nat) (s : State) : Host.Outcome State Fault Refusal := .next (s.remoteTimeout req)

/-- `FLAG_HOLD_TIMEOUT` (R417). -/
def execFlagHoldTimeout (k : Nat) (s : State) : Host.Outcome State Fault Refusal := .next (s.flagTimeout k)

/-- `STREAM_ENTRY_CLOSE_TIMEOUT` (R417). -/
def execStreamEntryCloseTimeout (k : Nat) (s : State) : Host.Outcome State Fault Refusal := .next (s.streamTimeout k)

/-- `TREE_BREAK` (R421). -/
def execTreeBreak (tree : Nat) (s : State) : Host.Outcome State Fault Refusal := .next (s.treeBreak tree)

/-- `TREE_CREATE` (R204, R351). -/
def execTreeCreate (w : DWord) (s : State) : Host.Outcome State Fault Refusal := .next (s.treeCreate w)

/-- `TREE_RELEASE` (R204, R421). -/
def execTreeRelease (w : DWord) (s : State) : Host.Outcome State Fault Refusal := .next (s.treeRelease w)

/-- `TREE_REQUEST_STATUS` (R203, R204, R351). -/
def execTreeRequestStatus (status tree : Nat) (s : State) : Host.Outcome State Fault Refusal := .next (s.treeStatus status tree)

end Sys2Proof.Machine
end

