-- ==== Sys2Proof/Machine/GridEvents.lean ====
section
/-! DEFINITION. Events of launch queues, grids and teams. An event whose condition does not hold changes nothing. -/

namespace Sys2Proof.Machine

/-- `DOORBELL` (R85, R86, R88). -/
def execDoorbell (q : Nat) (v : Word) (s : State) : Host.Outcome State Fault Refusal := .next (s.doorbell q v)

/-- `HOST_RING_COPY` (R85). -/
def execHostRingCopy (q : Nat) (s : State) : Host.Outcome State Fault Refusal := .next (s.hostRingCopy q)

/-- `RECORD_ARRIVAL` (R57, R88, R200, R382). -/
def execRecordArrival (q : Nat) (s : State) : Host.Outcome State Fault Refusal := .next (s.recordArrival q)

/-- `REMOTE_LAUNCH_DELIVERY` (R58). -/
def execRemoteLaunchDelivery (p : Packet) (s : State) : Host.Outcome State Fault Refusal :=
  .next (s.accept p .launch fun s => s.takeLaunch p)

/-- `TEAM_PLACE` (R34, R89 to R92, R100, R360, R380). -/
def execTeamPlace (part : Nat) (s : State) : Host.Outcome State Fault Refusal := .next (s.teamPlace part)

/-- `TEAM_EXIT` (R199, R241). -/
def execTeamExit (team : Nat) (s : State) : Host.Outcome State Fault Refusal := .next (s.teamExit team)

/-- `GRID_RETIRE` (R42, R48, R58, R59). -/
def execGridRetire (grid : Nat) (s : State) : Host.Outcome State Fault Refusal := .next (s.gridRetire grid)

/-- `RETIREMENT_REPORT` (R58, R59). -/
def execRetirementReport (p : Packet) (s : State) : Host.Outcome State Fault Refusal :=
  .next (s.accept p .report fun s => s.takeReport p)

/-- `RETIREMENT_INCREMENT` (R42, R59, R304). -/
def execRetirementIncrement (p : Packet) (s : State) : Host.Outcome State Fault Refusal :=
  .next (s.accept p .increment fun s => s.trigAdd p.tag p.opnd none)

end Sys2Proof.Machine
end

