-- ==== Sys2Proof/Machine/Service.lean ====
section
/-! DEFINITION. Bring-up, the BAR2 window, keys, partitions, energy windows (R350 to R360, R418). -/

namespace Sys2Proof.Machine

namespace State

/-! ### Bring-up (R187, R353, R354, R418) -/

/-- Row PACKAGE_RESET: every register as at reset; the bytes of the HBM stay, and so do the identity that the package
rejoins under (R187) and its trees, whose counters start afresh (R203). -/
def packageReset (s : State) : State :=
  { State.reset with
    agenda := s.agenda
    stepNo := s.stepNo
    hostOut := s.hostOut
    mem := { Mem.reset with hbm := s.mem.hbm, stamps := s.mem.stamps }
    fab := { Fabric.reset with
      fid := s.fab.fid, inc := s.fab.inc, joined := s.fab.joined, nextReq := s.fab.nextReq
      trees := s.fab.trees.map fun (t : Tree) => { t with asg := 1, cmp := 0, zeroSteps := [] } } }

/-- Row FUNCTION_READY: the fabric only once its links are trained. -/
def functionReady (s : State) (f : DevFn) : State :=
  match f with
  | .compute => s.setReady { s.ready with compute := true }
  | .hbm => s.setReady { s.ready with hbm := true }
  | .fabric => if s.fab.linksUp = 0 then s else s.setReady { s.ready with fabric := true }
  | .snapshot => s.setReady { s.ready with snapshot := true }
  | .keys => s.setReady { s.ready with keys := true }
  | .energy => s.setReady { s.ready with energy := true }

/-- A line name under another identity of this package. -/
def rename (old new line : Nat) : Nat := if line / 2 ^ 33 = old then new * 2 ^ 33 + line % 2 ^ 33 else line

/-- Signatures that name lines under an identity that has changed name every line. -/
def blurSigs (s : State) : State :=
  { s with
    warps := s.warps.map fun (w : Nat × Warp) => (w.1, { w.2 with sigs := { t := sigOnes, c := sigOnes, p := sigOnes, s := sigOnes } })
    teams := s.teams.map fun (t : Nat × Team) => (t.1, { t.2 with
      scrSig := SigStore.ones s.clock
      bars := t.2.bars.map fun (b : Bar) => { b with sig := sigOnes, lastSig := sigOnes }
      rings := t.2.rings.map fun l => l.map fun (g : Stage) => { g with sig := sigOnes } })
    grids := s.grids.map fun (g : Nat × Grid) => (g.1, { g.2 with chipSig := SigStore.ones s.clock })
    mem := { s.mem with l2sig := (List.range Config.slices).map fun k => (k, SigStore.ones s.clock) } }

/-- The link protocol in use (R354): each link runs the lower of this package's highest version and the one its other end
offers, and the package runs the lowest that any of them reached. -/
def linkVersion (offers : List Nat) (links : BitVec 16) : Nat :=
  ((List.range 16).filter fun l => links.getLsbD l).foldl (fun v l => min v (offers.getD l 1)) Config.linkProtocol

/-- Row LINK_TRAINING: the links come up, each with the version its other end offers; the package takes the identity that the
fabric manager gives it, or after a reset its own again under the next incarnation (R418). -/
def linkTraining (s : State) (fid inc : Nat) (offers : List Nat) (links : BitVec 16) : State :=
  if s.ready.fabric || links = 0 then s
  else
    let new := if s.fab.joined then s.fab.fid else fid
    let old := s.fab.fid
    let moved := s.mem.cores.map fun (c : Nat × CoreSt) =>
      (c.1, { c.2 with l1 := c.2.l1.map fun (e : L1Line) => { e with line := rename old new e.line } })
    let s := if new = old then s else (s.setMem { s.mem with cores := moved }).blurSigs
    s.modFab fun f => { f with
      fid := new, inc := if f.joined then (f.inc + 1) % 256 else inc, joined := true, proto := linkVersion offers links
      linksUp := links }

/-! ### The BAR2 window (R350) -/

/-- Bytes of the window read at their homes under WINKEY; an address that names no stack reads zero. -/
def windowRead (s : State) (off n : Nat) : List Byte × State :=
  (lineCuts (n / 128 + 2) (s.host.winbase + off) n).foldl (fun (acc : List Byte × State) c =>
    if hasHome (128 * c.1) then
      let (bs, s) := acc.2.homeRead (128 * c.1 + c.2.1) s.host.winkey 0 c.2.2
      (acc.1 ++ bs, s)
    else (acc.1 ++ List.replicate c.2.2 0, acc.2)) ([], s)

/-- Row BAR2_READ. It waits behind the host writes delivered before it (log 103) and for a load of its key (R359). -/
def bar2Read (s : State) (off n : Nat) : State :=
  if !s.ready.hbm || off + n > 2 ^ 36 || !s.host.barPend.isEmpty || s.keyWaits s.host.winkey then s
  else let (bs, s) := s.windowRead off n; s.emit (.data off bs)

/-- Whether a host write must wait for the twin of a page (R364), or for a load of its key (R359). -/
def barHeld (s : State) (a key n : Nat) : Bool := (lineCuts (n / 128 + 2) a n).any fun c => s.homeHeld (128 * c.1) key

/-- Host writes performed in the order in which they came, as far as they may be (R177, R364). -/
def barPump : Nat → State → State
  | 0, s => s
  | fuel + 1, s =>
    match s.host.barPend with
    | [] => s
    | (a, key, data) :: l =>
      if s.barHeld a key data.length then s
      else barPump fuel ((s.homeWrite a key 0 data).modHost fun h => { h with barPend := l })

/-- Row BAR2_WRITE: bytes written at their homes under WINKEY, ignored where an address names no stack. -/
def bar2Write (s : State) (off : Nat) (data : List Byte) : State :=
  if !s.ready.hbm || off + data.length > 2 ^ 36 then s
  else
    barPump (s.host.barPend.length + 1) (s.modHost fun h =>
      { h with barPend := h.barPend ++ [(h.winbase + off, h.winkey, data)] })

/-! ### Translations, keys (R351, R359) -/

/-- Row TLBI: a write of TLBI. GO starts the invalidation and reads 0 afterwards (log 91). -/
def tlbi (s : State) (w : DWord) : State :=
  if !s.ready.compute then s
  else
    let all := w.getLsbD 62
    let c := w.toNat % 4096
    let va := s.host.tlbiva
    let s := s.modHost fun h => { h with tlbiAll := all, tlbiCtx := c }
    if w.getLsbD 63 then s.tlbDrop fun t => t.ctx == c && (all || tlbHit c va t) else s

/-- The dirty lines that an L1 holds under a key index, written back; every line under it dropped. -/
def dropKeyL1 (s : State) (c k : Nat) : State :=
  ((s.core c).l1.filter fun e => e.key == k).foldl (fun (s : State) e =>
    let s := if e.dirty.isEmpty then s else s.lineWrite (e.line % 2 ^ 33) e.key e.cls (e.dirtyIn fun _ => true)
    s.l1Drop c e.line e.key) s

/-- A key installed at an index (R359): every dirty line tagged with it reaches memory under the old key, every line tagged with
it is dropped, and then the new key holds. -/
def putKey (s : State) (k v : Nat) : State :=
  let s := s.mem.cores.foldl (fun (s : State) c => s.dropKeyL1 c.1 k) s
  let m := (s.mem.l2.filter fun e => e.key == k).foldl (fun (m : Mem) e => (m.l2Write e).l2Drop e.slice e.line e.key) s.mem
  let keep := fun (ck : Nat) => ck / 2 ^ 60 != k
  s.setMem { m with
    keys := amPut 0 m.keys k v
    cores := m.cores.map fun (c : Nat × CoreSt) => (c.1, { c.2 with
      constCache := c.2.constCache.filter fun d => keep d.1
      codeCache := c.2.codeCache.filter fun d => keep d.1
      descCache := c.2.descCache.filter fun d => keep d.1 }) }

/-- Whether a dirty L1 line under a key index must wait to be written back (R364). -/
def keyHeld (s : State) (k : Nat) : Bool :=
  s.mem.cores.any fun c => c.2.l1.any fun e => e.key == k && !e.dirty.isEmpty && s.writeHeld (e.line % 2 ^ 33 * 128)

/-- The key load under way ends once every dirty line of its index can reach memory (log 104). -/
def keyPump (s : State) : State :=
  match s.host.keyPend with
  | none => s
  | some (k, v) => if s.keyHeld k then s else (s.putKey k v).modHost fun h => { h with keyPend := none }

/-- A write of KCMD that loads a key at the index in KIDX, ignored while KBUSY reads 1 (R359). -/
def installKey (s : State) (v : Nat) : State :=
  if !s.ready.keys || s.host.keyPend.isSome then s
  else (s.modHost fun h => { h with keyPend := some (h.kidx, v) }).keyPump

/-! ### Partitions (R358, R174) -/

/-- The fields of PCTL beside EN. -/
def pctlMasks (p : Part) (w : DWord) : Part := { p with stackMask := field w.toNat 16 12, hubMask := field w.toNat 0 16 }

/-- The frames of a twin pool. -/
def poolOf (p : Part) : List Nat := (List.range p.twcnt).map fun k => p.twbase / 2 ^ 19 + k

/-- Row PARTITION_ENABLE: a write of PCTL with EN = 1, ignored while EN reads 1. -/
def partitionEnable (s : State) (pi : Nat) (w : DWord) : State :=
  if !s.ready.compute || (s.part pi).en || !w.getLsbD 63 then s
  else s.modPart pi fun p => { pctlMasks p w with en := true, twins := poolOf p }

/-- Row PARTITION_DISABLE: a write of PCTL with EN = 0, ignored while a context of the partition is defined. -/
def partitionDisable (s : State) (pi : Nat) (w : DWord) : State :=
  if !s.ready.compute || w.getLsbD 63 then s
  else if (s.part pi).en then
    if s.ctxs.any fun c => c.2.v && c.2.part == pi then s else s.modPart pi fun p => { p with en := false }
  else s.modPart pi fun p => pctlMasks p w

/-- Row REDIR: every redirection of a partition ends (R174). -/
def redir (s : State) (pi : Nat) : State :=
  if !s.ready.compute then s else s.setMem { s.mem with redirs := s.mem.redirs.filter fun r => r.2.2 != pi }

/-! ### Energy (R18, R92, R360) -/

/-- Core cycles of a millisecond. -/
def cyclesPerMs : Nat := 4000000

/-- Row ENERGY_WINDOW_BOUNDARY: a new PWRSET and EWIN take effect. -/
def windowBoundary (s : State) : State :=
  if s.clock < s.host.winStart + s.host.ewinNow * cyclesPerMs then s
  else s.modHost fun h => { h with pwrNow := h.pwrset, ewinNow := h.ewin, winStart := s.clock }

/-- Row CHARGE_EXPIRE: a charge ages out one window after its admission. -/
def chargeExpire (s : State) (pi k : Nat) : State :=
  s.modPart pi fun p => { p with charges := p.charges.filter fun c => !(c.k == k && c.expiry ≤ s.clock) }

end State

end Sys2Proof.Machine
end

