-- ==== Sys2Proof/Machine/Aperture.lean ====
section
/-! DEFINITION. The host register aperture (Tables 5-1, 5-2, 22-1 to 22-10, 25-1 to 25-3, 25-6): what a write of each register
does and what a read returns (R353, R355, R358), and the capability list (R352). -/

namespace Sys2Proof.Machine

namespace State

/-- Whether the function that a register belongs to is ready (R353). -/
def apertureReady (s : State) (off : Nat) : Bool :=
  if off < 0x10000 then
    if off = 0x30 || off = 0x38 then s.ready.hbm
    else if off = 0x08 || off = 0x10 || off = 0x18 then s.ready.energy
    else s.ready.compute
  else if off < 0x48000 then
    if 0x40000 ≤ off && (off % 256 = 0x40 || off % 256 = 0x48) then s.ready.energy else s.ready.compute
  else if off < 0x50000 then s.ready.energy
  else if off < 0x60000 then s.ready.keys
  else if off < 0x70000 then s.ready.snapshot
  else if off = 0x71000 || off = 0x71008 then s.ready.compute
  else if off < 0x80000 then s.ready.fabric
  else if off < 0x80800 then s.ready.compute
  else s.ready.fabric

/-! ### Writes -/

/-- A write of a global register (Table 22-2). -/
def writeGlobal (s : State) (off : Nat) (w : DWord) : State :=
  let v := w.toNat
  match off with
  | 0x00 =>
    let n := v % 256
    if n = 0 || n > Config.queueFormat || s.queues.any (fun q => q.2.en) then s else s.modHost fun h => { h with qfmt := n }
  | 0x08 => if v % 64 > 40 then s else s.modHost fun h => { h with pwrset := v % 64 }
  | 0x10 => if v % 1024 = 0 || v % 1024 > 1000 then s else s.modHost fun h => { h with ewin := v % 1024 }
  | 0x20 => s.tlbi w
  | 0x28 => s.modHost fun h => { h with tlbiva := v }
  | 0x30 => s.modHost fun h => { h with winbase := v / 2 ^ 36 * 2 ^ 36 }
  | 0x38 => s.modHost fun h => { h with winkey := v % 4096 }
  | _ => s

/-- A write of LQCFG (Table 5-2, R355). -/
def writeLqcfg (s : State) (q : Nat) (w : DWord) : State :=
  let v := w.toNat
  let n := v % 32
  let part := field v 8 3
  if n < 4 || n > 12 || (w.getLsbD 31 && !(s.part part).en) then s
  else s.modQueue q fun x => { x with
    en := w.getLsbD 31, terr := x.terr && !w.getLsbD 30, ctx := field v 16 12, part := part, log2n := n }

/-- A write of a launch-queue register (Table 5-1). -/
def writeQueue (s : State) (q r : Nat) (w : DWord) : State :=
  match r with
  | 0x00 => s.modQueue q fun x => { x with base := w.toNat / 4096 * 4096 }
  | 0x08 => s.writeLqcfg q w
  | 0x10 => s.doorbell q (loWord w)
  | _ => s

/-- A write of a context entry (Table 22-5). -/
def writeCtx (s : State) (c r : Nat) (w : DWord) : State :=
  match r with
  | 0x00 => s.ctxWord c w
  | 0x08 => s.ctxRoot c w.toNat
  | 0x10 => s.ctxSave c w.toNat
  | _ => s

/-- A write of a layout register, taken only while EN reads 0 (R358). -/
def layout' (s : State) (pi : Nat) (f : Part → Part) : State := if (s.part pi).en then s else s.modPart pi f

/-- A write of a partition register (Table 22-6). -/
def writePart (s : State) (pi r : Nat) (w : DWord) : State :=
  let v := w.toNat
  match r with
  | 0x00 => if w.getLsbD 63 then s.partitionEnable pi w else s.partitionDisable pi w
  | 0x08 => s.layout' pi fun p => { p with pdom := v % 256 }
  | 0x10 => s.layout' pi fun p => { p with pchs := v % 256 }
  | 0x18 => s.layout' pi fun p => { p with sback := v / 2048 * 2048 }
  | 0x20 => s.layout' pi fun p => { p with sslots := v % 2 ^ 24 }
  | 0x28 => s.layout' pi fun p => { p with twbase := v / 2 ^ 19 * 2 ^ 19 }
  | 0x30 => s.layout' pi fun p => { p with twcnt := v % 65536 }
  | 0x38 => s.layout' pi fun p => { p with trigFirst := v % 4096, trigCnt := field v 16 12 }
  | 0x40 => s.modPart pi fun p => { p with ebud := v }
  | 0x50 => if w.getLsbD 0 then s.redir pi else s
  | 0x58 => s.layout' pi fun p => { p with drbase := v / 2 ^ 23 * 2 ^ 23 }
  | _ =>
    if 0x80 ≤ r && r < 0xC0 && r % 4 = 0 then
      let n := (r - 0x80) / 4
      s.modPart pi fun p => { p with rcls := amPut (rclsReset n) p.rcls n (v % 2 ^ 20) }
    else s

/-- A write of a key-loading register (Table 22-7). -/
def writeKey (s : State) (r : Nat) (w : DWord) : State :=
  if r = 0x00 then s.modHost fun h => { h with kidx := w.toNat % 4096 }
  else if r = 0x08 then
    if w.getLsbD 1 then s.installKey 0 else if w.getLsbD 0 then s.installKey s.host.kdata else s
  else if 0x40 ≤ r && r < 0x80 && r % 8 = 0 then
    s.modHost fun h => { h with kdata := setField h.kdata (8 * (r - 0x40)) 64 w.toNat }
  else s

/-- A write of a snapshot-engine register (Tables 22-8 and 25-6). -/
def writeSnap (s : State) (pi r : Nat) (w : DWord) : State :=
  match r with
  | 0x00 => s.modSnap pi fun x => { x with snset := w }
  | 0x08 => s.modSnap pi fun x => { x with sncnt := BitVec.ofNat 64 (w.toNat % 2 ^ 32) }
  | 0x10 => s.modSnap pi fun x => { x with snstep := w }
  | 0x18 => s.modSnap pi fun x => { x with sntgt := BitVec.ofNat 64 (w.toNat % 2 ^ 61 / 2 ^ 19 * 2 ^ 19) }
  | 0x20 => s.snapshotArm pi w
  | 0x38 => if w.getLsbD 62 then s.snapshotAbort pi else if w.getLsbD 61 then s.snapshotRetry pi else s
  | _ => s

/-- A write of the peer incarnation table (R178). Message counts to a package start anew with its incarnation. -/
def writePeer (s : State) (fid v : Nat) : State :=
  let s := s.modFab fun f => { f with peers := amPut 0 f.peers fid (v % 256) }
  { s with warps := s.warps.map fun (w : Nat × Warp) => (w.1, { w.2 with msgCounts := amErase w.2.msgCounts fid }) }

/-- A write of a fabric-manager, trigger or tree register (Tables 22-2 and 22-10). -/
def writeFabric (s : State) (off : Nat) (w : DWord) : State :=
  match off with
  | 0x70000 => s.modHost fun h => { h with trqlist := w.toNat }
  | 0x70008 => if field w.toNat 60 2 = 1 then s.treeCreate w else s.treeRelease w
  | 0x71000 => s.modHost fun h => { h with tcsel := w.toNat % 4096 }
  | 0x71010 => s.modHost fun h => { h with trssel := w.toNat % 65536 }
  | _ => if 0x78000 ≤ off && off < 0x7A000 then s.writePeer (off - 0x78000) w.toNat else s

/-- A write of an error or service register (Tables 25-1 to 25-4). -/
def writeService (s : State) (pi r : Nat) (w : DWord) : State :=
  match r with
  | 0x00 => s.modPart pi fun p => { p with psva := w.toNat }
  | 0x08 =>
    if w.getLsbD 63 then s.pageService pi (w.toNat % 4096) (w.getLsbD 62)
    else s.modPart pi fun p => { p with psFail := w.getLsbD 62, psCtx := w.toNat % 4096 }
  | 0x18 => if w.getLsbD 63 then s.modPart pi fun p => { p with uesrc := p.uesrc % 2 ^ 63 } else s
  | _ => s

/-- Row REGISTER_WRITE: a host write of eight bytes at an offset of the aperture; of four at a replacement-class or
energy-class register, of one at the peer incarnation table. -/
def regWrite (s : State) (off : Nat) (w : DWord) : State :=
  if !s.apertureReady off then s
  else if off < 0x10000 then s.writeGlobal off w
  else if off < 0x10800 then s.writeQueue ((off - 0x10000) / 32) (off % 32) w
  else if 0x20000 ≤ off && off < 0x40000 then s.writeCtx ((off - 0x20000) / 32) (off % 32) w
  else if 0x40000 ≤ off && off < 0x40800 then s.writePart ((off - 0x40000) / 256) (off % 256) w
  else if 0x48000 ≤ off && off < 0x4A000 && off % 4 = 0 then
    s.modPart ((off - 0x48000) / 1024) fun p => { p with eclass := amPut 0 p.eclass (off % 1024 / 4) (w.toNat % 2 ^ 32) }
  else if 0x50000 ≤ off && off < 0x50080 then s.writeKey (off - 0x50000) w
  else if 0x60000 ≤ off && off < 0x60400 then s.writeSnap ((off - 0x60000) / 128) (off % 128) w
  else if 0x70000 ≤ off && off < 0x7A000 then s.writeFabric off w
  else if 0x80000 ≤ off && off < 0x80800 then s.writeService ((off - 0x80000) / 256) (off % 256) w
  else if off = 0x80800 then
    if w.toNat % 64 < 20 || w.toNat % 64 > 40 then s else s.modHost fun h => { h with ftmo := w.toNat % 64 }
  else s

/-! ### Reads -/

/-- A global register as it reads. GO of TLBI reads 0 (log 91). -/
def readGlobal (s : State) (off : Nat) : Nat :=
  match off with
  | 0x00 => s.host.qfmt
  | 0x08 => s.host.pwrset
  | 0x10 => s.host.ewin
  | 0x18 => s.host.epkg
  | 0x20 => 2 ^ 62 * bit s.host.tlbiAll + s.host.tlbiCtx
  | 0x28 => s.host.tlbiva
  | 0x30 => s.host.winbase
  | 0x38 => s.host.winkey
  | _ => 0

/-- A launch-queue register as it reads. -/
def readQueue (s : State) (q r : Nat) : Nat :=
  let x := s.queue q
  match r with
  | 0x00 => x.base
  | 0x08 => 2 ^ 31 * bit x.en + 2 ^ 30 * bit x.terr + 2 ^ 16 * x.ctx + 2 ^ 8 * x.part + x.log2n
  | 0x10 => x.tail
  | 0x18 => x.head
  | _ => 0

/-- A context entry as it reads. -/
def readCtxEntry (s : State) (c r : Nat) : Nat :=
  let x := s.ctx c
  match r with
  | 0x00 => 2 ^ 63 * bit x.v + 2 ^ 62 * bit x.sysc + 2 ^ 61 * bit x.preq + 2 ^ 60 * bit (s.saved c) + 2 ^ 59 * bit x.lawf + x.part
  | 0x08 => x.root
  | 0x10 => x.save
  | _ => 0

/-- A partition register as it reads. -/
def readPart (s : State) (pi r : Nat) : Nat :=
  let p := s.part pi
  match r with
  | 0x00 => 2 ^ 63 * bit p.en + 2 ^ 16 * p.stackMask + p.hubMask
  | 0x08 => p.pdom
  | 0x10 => p.pchs
  | 0x18 => p.sback
  | 0x20 => p.sslots
  | 0x28 => p.twbase
  | 0x30 => p.twcnt
  | 0x38 => 2 ^ 16 * p.trigCnt + p.trigFirst
  | 0x40 => p.ebud
  | 0x48 => p.emeter
  | 0x58 => p.drbase
  | _ => if 0x80 ≤ r && r < 0xC0 && r % 4 = 0 then amGet (rclsReset ((r - 0x80) / 4)) p.rcls ((r - 0x80) / 4) else 0

/-- A snapshot-engine register as it reads. -/
def readSnap (s : State) (pi r : Nat) : Nat :=
  let x := (s.part pi).snap
  match r with
  | 0x00 => x.snset.toNat
  | 0x08 => x.sncnt.toNat
  | 0x10 => x.snstep.toNat
  | 0x18 => x.sntgt.toNat
  | 0x20 => 2 ^ 48 * x.tree + 2 ^ 36 * x.ctx + 2 ^ 24 * x.key + 2 ^ 12 * x.trg + 2 ^ 11 * bit x.trgen + 2 * x.state
  | 0x28 => x.done
  | 0x30 => x.total
  | 0x38 => 2 ^ 63 * bit x.fail + 2 ^ 56 * x.cause + x.page
  | _ => 0

/-- A fabric-manager, trigger or tree register as it reads (R366). GO of TRQCTL reads 0 (log 91). -/
def readFabric (s : State) (off : Nat) : Nat :=
  match off with
  | 0x70000 => s.host.trqlist
  | 0x70008 => 2 ^ 62 * bit s.host.trqBusy + 2 ^ 60 * s.host.trqOp + 2 ^ 32 * s.host.trqCount + s.host.trqTree
  | 0x70010 => s.host.trqstat
  | 0x71000 => s.host.tcsel
  | 0x71008 => wrapN 64 (s.trigGet s.host.tcsel)
  | 0x71010 => s.host.trssel
  | 0x71018 => ((s.treeOf s.host.trssel).map Tree.asg).getD 0
  | 0x71020 => ((s.treeOf s.host.trssel).map Tree.cmp).getD 0
  | _ => if 0x78000 ≤ off && off < 0x7A000 then amGet 0 s.fab.peers (off - 0x78000) else 0

/-- An error or service register as it reads. -/
def readService (s : State) (pi r : Nat) : Nat :=
  let p := s.part pi
  match r with
  | 0x00 => p.psva
  | 0x08 => 2 ^ 62 * bit p.psFail + 2 ^ 61 * bit p.psBusy + p.psCtx
  | 0x10 => p.ueaddr
  | 0x18 => p.uesrc
  | 0x20 => p.uecnt
  | 0x28 => p.cecnt
  | _ => 0

/-- A host read of the aperture: a register of a function not ready, a write-only one and a reserved offset read zero. -/
def apertureRead (s : State) (off : Nat) : DWord :=
  BitVec.ofNat 64 (
    if !s.apertureReady off then 0
    else if off < 0x10000 then s.readGlobal off
    else if off < 0x10800 then s.readQueue ((off - 0x10000) / 32) (off % 32)
    else if 0x20000 ≤ off && off < 0x40000 then s.readCtxEntry ((off - 0x20000) / 32) (off % 32)
    else if 0x40000 ≤ off && off < 0x40800 then s.readPart ((off - 0x40000) / 256) (off % 256)
    else if 0x48000 ≤ off && off < 0x4A000 && off % 4 = 0 then amGet 0 (s.part ((off - 0x48000) / 1024)).eclass (off % 1024 / 4)
    else if off = 0x50010 then bit s.host.keyPend.isSome
    else if 0x60000 ≤ off && off < 0x60400 then s.readSnap ((off - 0x60000) / 128) (off % 128)
    else if 0x70000 ≤ off && off < 0x7A000 then s.readFabric off
    else if 0x80000 ≤ off && off < 0x80800 then s.readService ((off - 0x80000) / 256) (off % 256)
    else if off = 0x80800 then s.host.ftmo
    else if off = 0x80808 then s.host.stalecnt
    else if off = 0x80810 then s.host.flagdrop
    else if off = 0x80818 then s.host.msgdrop
    else 0)

/-! ### The capability list (R352) -/

/-- READY and the own registers of capability n + 1 (Table 22-4). -/
def capOf (s : State) (n : Nat) : Bool × Nat :=
  match n with
  | 0 => (s.ready.compute, Config.recordVersion + 2 ^ 8 * Config.functionTables + 2 ^ 16 * Config.queueFormat)
  | 1 => (s.ready.hbm, 2 ^ Config.stackCount - 1 + 2 ^ 16 * Config.hbmGB)
  | 2 => (s.ready.fabric, s.fab.fid + 2 ^ 16 * s.fab.inc + 2 ^ 24 * s.fab.proto + 2 ^ 32 * s.fab.linksUp.toNat)
  | 3 => (s.ready.snapshot, 8)
  | 4 => (s.ready.keys, 4096)
  | 5 => (s.ready.energy, 256)
  | _ => (false, 0)

/-- Eight bytes of configuration space: entry n of the list lies at 0x100 + 32·n. -/
def capRead (s : State) (off : Nat) : DWord :=
  let n := (off - 0x100) / 32
  let (ready, regs) := s.capOf n
  if off < 0x100 || n ≥ 6 then 0
  else if off % 32 = 0 then
    BitVec.ofNat 64 (2 ^ 52 * (if n < 5 then 0x120 + 32 * n else 0) + 2 ^ 32 * bit ready + 2 ^ 24 + (n + 1))
  else if off % 32 = 8 then BitVec.ofNat 64 regs
  else 0

end State

end Sys2Proof.Machine
end

