-- ==== Sys2Proof/Machine/HostEvents.lean ====
section
/-! DEFINITION. Events of bring-up, the host, the energy windows and the snapshot engines. An event whose condition does not
hold changes nothing. -/

namespace Sys2Proof.Machine

/-- `PACKAGE_RESET` (R203, R353, R418). -/
def execPackageReset (s : State) : Host.Outcome State Fault Refusal := .next s.packageReset

/-- `FUNCTION_READY` (R353). -/
def execFunctionReady (f : DevFn) (s : State) : Host.Outcome State Fault Refusal := .next (s.functionReady f)

/-- `LINK_TRAINING` (R178, R187, R354, R418). -/
def execLinkTraining (fid inc : Nat) (offers : List Nat) (links : BitVec 16) (s : State) : Host.Outcome State Fault Refusal :=
  .next (s.linkTraining fid inc offers links)

/-- `BAR2_READ` (R127, R350). -/
def execBar2Read (off len : Nat) (s : State) : Host.Outcome State Fault Refusal := .next (s.bar2Read off len)

/-- `BAR2_WRITE` (R127, R177, R350). -/
def execBar2Write (off : Nat) (data : List Byte) (s : State) : Host.Outcome State Fault Refusal := .next (s.bar2Write off data)

/-- `TLBI` (R119, R351). -/
def execTlbi (w : DWord) (s : State) : Host.Outcome State Fault Refusal := .next (s.tlbi w)

/-- `KEY_LOAD` (R359). -/
def execKeyLoad (s : State) : Host.Outcome State Fault Refusal := .next (s.installKey s.host.kdata)

/-- `KEY_ZERO` (R359). -/
def execKeyZero (s : State) : Host.Outcome State Fault Refusal := .next (s.installKey 0)

/-- `PARTITION_ENABLE` (R358). -/
def execPartitionEnable (part : Nat) (w : DWord) (s : State) : Host.Outcome State Fault Refusal := .next (s.partitionEnable part w)

/-- `PARTITION_DISABLE` (R358). -/
def execPartitionDisable (part : Nat) (w : DWord) (s : State) : Host.Outcome State Fault Refusal := .next (s.partitionDisable part w)

/-- `REDIR` (R174). -/
def execRedir (part : Nat) (s : State) : Host.Outcome State Fault Refusal := .next (s.redir part)

/-- `ENERGY_WINDOW_BOUNDARY` (R18, R360). -/
def execEnergyWindowBoundary (s : State) : Host.Outcome State Fault Refusal := .next s.windowBoundary

/-- `CHARGE_EXPIRE` (R92). -/
def execChargeExpire (part k : Nat) (s : State) : Host.Outcome State Fault Refusal := .next (s.chargeExpire part k)

/-- `SNAPSHOT_ARM` (R361, R362, R422). -/
def execSnapshotArm (part : Nat) (w : DWord) (s : State) : Host.Outcome State Fault Refusal := .next (s.snapshotArm part w)

/-- `SNAPSHOT_CUT` (R362, R363). -/
def execSnapshotCut (part : Nat) (s : State) : Host.Outcome State Fault Refusal := .next (s.snapshotCut part)

/-- `CARTER_DRAIN_PAGE` (R365). -/
def execCarterDrainPage (part page : Nat) (s : State) : Host.Outcome State Fault Refusal := .next (s.carterDrain part page)

/-- `SNAPSHOT_RETRY` (R423). -/
def execSnapshotRetry (part : Nat) (s : State) : Host.Outcome State Fault Refusal := .next (s.snapshotRetry part)

/-- `SNAPSHOT_ABORT` (R423). -/
def execSnapshotAbort (part : Nat) (s : State) : Host.Outcome State Fault Refusal := .next (s.snapshotAbort part)

/-- `REGISTER_WRITE` (R121, R178, R249, R353, R355, R358, R366, R401). -/
def execRegisterWrite (off : Nat) (w : DWord) (s : State) : Host.Outcome State Fault Refusal := .next (s.regWrite off w)

end Sys2Proof.Machine
end

