-- ==== Sys2Proof/Machine/SaveEvents.lean ====
section
/-! DEFINITION. Events of contexts, saves, handlers, halts and soft errors. An event whose condition does not hold changes
nothing. -/

namespace Sys2Proof.Machine

/-- `PREEMPT_REQUEST`: a write of PREQ = 1 (R94, R357). -/
def execPreemptRequest (ctx : Nat) (s : State) : Host.Outcome State Fault Refusal := .next (s.preempt ctx)

/-- `CONTEXT_RESUME`: a write of PREQ = 0 (R100, R357). -/
def execContextResume (ctx : Nat) (s : State) : Host.Outcome State Fault Refusal := .next (s.contextResume ctx)

/-- `CONTEXT_DEFINE`: ROOT and SAVE written, then the first word with V = 1 (R356). -/
def execContextDefine (ctx : Nat) (w0 root save : DWord) (s : State) : Host.Outcome State Fault Refusal :=
  if (s.part (w0.toNat % 8)).en && w0.getLsbD 63 then .next (((s.ctxRoot ctx root.toNat).ctxSave ctx save.toNat).ctxWord ctx w0)
  else .next s

/-- `CONTEXT_DISCARD`: a write of V = 0 (R377). -/
def execContextDiscard (ctx : Nat) (s : State) : Host.Outcome State Fault Refusal :=
  .next (if (s.ctx ctx).v && s.saved ctx then s.discard ctx else s)

/-- `DEADLINE_EXPIRE` (R96). -/
def execDeadlineExpire (team : Nat) (s : State) : Host.Outcome State Fault Refusal := .next (s.deadlineExpire team)

/-- `TEAM_SAVE` (R97 to R99, R379). -/
def execTeamSave (team : Nat) (s : State) : Host.Outcome State Fault Refusal := .next (s.teamSave team)

/-- `HANDLER_ENTRY` (R82, R371). -/
def execHandlerEntry (core : Nat) (s : State) : Host.Outcome State Fault Refusal := .next (s.giveBank core)

/-- `TEAM_HALT` (R374 to R376). -/
def execTeamHalt (team : Nat) (s : State) : Host.Outcome State Fault Refusal := .next (s.teamHalt team)

/-- `WATCHDOG_EXPIRE` (R62, R378). -/
def execWatchdogExpire (w : WarpId) (s : State) : Host.Outcome State Fault Refusal := .next (s.watchdogExpire w)

/-- `EVENT_APPEND` (R369). -/
def execEventAppend (ctx : Nat) (s : State) : Host.Outcome State Fault Refusal := .next (s.eventAppend ctx)

/-- `PAGE_SERVICE_ANSWER` (R405, R406). -/
def execPageServiceAnswer (part ctx : Nat) (s : State) : Host.Outcome State Fault Refusal := .next (s.pageService part ctx false)

/-- `PAGE_SERVICE_REFUSE` (R405, R406). -/
def execPageServiceRefuse (part ctx : Nat) (s : State) : Host.Outcome State Fault Refusal := .next (s.pageService part ctx true)

/-- `CORRECTED_ERROR` (R410). -/
def execCorrectedError (e : ErrorSite) (s : State) : Host.Outcome State Fault Refusal :=
  .next (s.modPart e.part fun p => { p with cecnt := State.satInc p.cecnt })

/-- `UNCORRECTABLE_ERROR` (R410, R411, R423). -/
def execUncorrectableError (e : ErrorSite) (s : State) : Host.Outcome State Fault Refusal := .next (s.uncorrectable e)

end Sys2Proof.Machine
end

