-- ==== Sys2Proof/Machine/Dispatch.lean ====
section
/-! DEFINITION. The dispatch of every row of spec/opcode_table.json to its meaning, one arm per constructor. -/

namespace Sys2Proof.Machine

/-- What a row does to the machine. -/
def exec (i : Instr) (s : State) : Host.Outcome State Fault Refusal :=
  match i with
  | .nop g => Sys2Proof.Machine.execNop g s
  | .bra g off => Sys2Proof.Machine.execBra g off s
  | .brx g a => Sys2Proof.Machine.execBrx g a s
  | .call g d off => Sys2Proof.Machine.execCall g d off s
  | .callx g d a => Sys2Proof.Machine.execCallx g d a s
  | .ret g a => Sys2Proof.Machine.execRet g a s
  | .exit g => Sys2Proof.Machine.execExit g s
  | .yield g => Sys2Proof.Machine.execYield g s
  | .wait g c n => Sys2Proof.Machine.execWait g c n s
  | .bara g d cnt b => Sys2Proof.Machine.execBara g d cnt b s
  | .barw g a b => Sys2Proof.Machine.execBarw g a b s
  | .bars g cnt b => Sys2Proof.Machine.execBars g cnt b s
  | .rput g n st => Sys2Proof.Machine.execRput g n st s
  | .rget g n st ph => Sys2Proof.Machine.execRget g n st ph s
  | .rrel g n st => Sys2Proof.Machine.execRrel g n st s
  | .sread g d sr => Sys2Proof.Machine.execSread g d sr s
  | .swrite g sr b => Sys2Proof.Machine.execSwrite g sr b s
  | .reggrow g d n nw => Sys2Proof.Machine.execReggrow g d n nw s
  | .regshrink g n => Sys2Proof.Machine.execRegshrink g n s
  | .tagq g d a => Sys2Proof.Machine.execTagq g d a s
  | .launch g d a => Sys2Proof.Machine.execLaunch g d a s
  | .lwait g d a nb => Sys2Proof.Machine.execLwait g d a nb s
  | .trap g n => Sys2Proof.Machine.execTrap g n s
  | .brk g n => Sys2Proof.Machine.execBrk g n s
  | .tret g skip => Sys2Proof.Machine.execTret g skip s
  | .tinfo g d j => Sys2Proof.Machine.execTinfo g d j s
  | .tlbinv g a b all => Sys2Proof.Machine.execTlbinv g a b all s
  | .iadd g d a b k => Sys2Proof.Machine.execIadd g d a b k s
  | .isub g d a b k => Sys2Proof.Machine.execIsub g d a b k s
  | .imul g d a b => Sys2Proof.Machine.execImul g d a b s
  | .imulh g d a b u => Sys2Proof.Machine.execImulh g d a b u s
  | .imad g d a b c => Sys2Proof.Machine.execImad g d a b c s
  | .imadw g d a b c u => Sys2Proof.Machine.execImadw g d a b c u s
  | .iadd64 g d a b => Sys2Proof.Machine.execIadd64 g d a b s
  | .isub64 g d a b => Sys2Proof.Machine.execIsub64 g d a b s
  | .imin g d a b u => Sys2Proof.Machine.execImin g d a b u s
  | .imax g d a b u => Sys2Proof.Machine.execImax g d a b u s
  | .iabs g d a sat => Sys2Proof.Machine.execIabs g d a sat s
  | .ineg g d a sat => Sys2Proof.Machine.execIneg g d a sat s
  | .isat g d a r => Sys2Proof.Machine.execIsat g d a r s
  | .idiv g d a b u => Sys2Proof.Machine.execIdiv g d a b u s
  | .irem g d a b u => Sys2Proof.Machine.execIrem g d a b u s
  | .idot4 g d a b c ua ub => Sys2Proof.Machine.execIdot4 g d a b c ua ub s
  | .idot2 g d a b c ua ub => Sys2Proof.Machine.execIdot2 g d a b c ua ub s
  | .lea g d a b sh sx => Sys2Proof.Machine.execLea g d a b sh sx s
  | .and g d a b => Sys2Proof.Machine.execAnd g d a b s
  | .or g d a b => Sys2Proof.Machine.execOr g d a b s
  | .xor g d a b => Sys2Proof.Machine.execXor g d a b s
  | .andn g d a b => Sys2Proof.Machine.execAndn g d a b s
  | .not g d a => Sys2Proof.Machine.execNot g d a s
  | .lop3 g d a b lut => Sys2Proof.Machine.execLop3 g d a b lut s
  | .shl g d a b => Sys2Proof.Machine.execShl g d a b s
  | .shr g d a b => Sys2Proof.Machine.execShr g d a b s
  | .sar g d a b => Sys2Proof.Machine.execSar g d a b s
  | .rotl g d a b => Sys2Proof.Machine.execRotl g d a b s
  | .funl g d a b c => Sys2Proof.Machine.execFunl g d a b c s
  | .funr g d a b c => Sys2Proof.Machine.execFunr g d a b c s
  | .popc g d a => Sys2Proof.Machine.execPopc g d a s
  | .clz g d a => Sys2Proof.Machine.execClz g d a s
  | .ctz g d a => Sys2Proof.Machine.execCtz g d a s
  | .brev g d a => Sys2Proof.Machine.execBrev g d a s
  | .bfx g d a b sx => Sys2Proof.Machine.execBfx g d a b sx s
  | .bfi g d a b c => Sys2Proof.Machine.execBfi g d a b c s
  | .prmt g d a b c => Sys2Proof.Machine.execPrmt g d a b c s
  | .isetp g pd a b cc u => Sys2Proof.Machine.execIsetp g pd a b cc u s
  | .sel g d a b pc => Sys2Proof.Machine.execSel g d a b pc s
  | .mov g d b => Sys2Proof.Machine.execMov g d b s
  | .movi g d x => Sys2Proof.Machine.execMovi g d x s
  | .movu g d b => Sys2Proof.Machine.execMovu g d b s
  | .plop3 g pd pa pb lut => Sys2Proof.Machine.execPlop3 g pd pa pb lut s
  | .p2v g d pa => Sys2Proof.Machine.execP2v g d pa s
  | .v2p g pd a mask => Sys2Proof.Machine.execV2p g pd a mask s
  | .vote g pd pa m => Sys2Proof.Machine.execVote g pd pa m s
  | .pcnt g d pa => Sys2Proof.Machine.execPcnt g d pa s
  | .elect g pd => Sys2Proof.Machine.execElect g pd s
  | .shfl g d a b m => Sys2Proof.Machine.execShfl g d a b m s
  | .bcast g d a b => Sys2Proof.Machine.execBcast g d a b s
  | .redux g d a op => Sys2Proof.Machine.execRedux g d a op s
  | .scan g d a op excl => Sys2Proof.Machine.execScan g d a op excl s
  | .match g d a b64 => Sys2Proof.Machine.execMatch g d a b64 s
  | .cvtif g d a rnd u fmt s64 => Sys2Proof.Machine.execCvtif g d a rnd u fmt s64 s
  | .cvtfi g d a rnd u fmt d64 => Sys2Proof.Machine.execCvtfi g d a rnd u fmt d64 s
  | .cvtff g d a rnd dst src => Sys2Proof.Machine.execCvtff g d a rnd dst src s
  | .cvtn g d a b slot => Sys2Proof.Machine.execCvtn g d a b slot s
  | .cvtw g d a b slot => Sys2Proof.Machine.execCvtw g d a b slot s
  | .cbdec g d a fmt hi => Sys2Proof.Machine.execCbdec g d a fmt hi s
  | .scalq g d a slot => Sys2Proof.Machine.execScalq g d a slot s
  | .amax g d a b warp fmt => Sys2Proof.Machine.execAmax g d a b warp fmt s
  | .fadd g d a b m => Sys2Proof.Machine.execFadd g d a b m s
  | .fsub g d a b m => Sys2Proof.Machine.execFsub g d a b m s
  | .fmul g d a b m => Sys2Proof.Machine.execFmul g d a b m s
  | .ffma g d a b c m => Sys2Proof.Machine.execFfma g d a b c m s
  | .fmin g d a b => Sys2Proof.Machine.execFmin g d a b s
  | .fmax g d a b => Sys2Proof.Machine.execFmax g d a b s
  | .fsetp g pd a b cc => Sys2Proof.Machine.execFsetp g pd a b cc s
  | .fclass g d a => Sys2Proof.Machine.execFclass g d a s
  | .frnd g d a rnd => Sys2Proof.Machine.execFrnd g d a rnd s
  | .frcp g d a => Sys2Proof.Machine.execFrcp g d a s
  | .frsq g d a => Sys2Proof.Machine.execFrsq g d a s
  | .fsqrt g d a rnd => Sys2Proof.Machine.execFsqrt g d a rnd s
  | .fdiv g d a b rnd => Sys2Proof.Machine.execFdiv g d a b rnd s
  | .fexpf g d a => Sys2Proof.Machine.execFexpf g d a s
  | .flogf g d a => Sys2Proof.Machine.execFlogf g d a s
  | .fsin g d a => Sys2Proof.Machine.execFsin g d a s
  | .fcos g d a => Sys2Proof.Machine.execFcos g d a s
  | .fscale g d a b rnd => Sys2Proof.Machine.execFscale g d a b rnd s
  | .fexpo g d a => Sys2Proof.Machine.execFexpo g d a s
  | .fmant g d a => Sys2Proof.Machine.execFmant g d a s
  | .hadd2 g d a b m => Sys2Proof.Machine.execHadd2 g d a b m s
  | .hmul2 g d a b m => Sys2Proof.Machine.execHmul2 g d a b m s
  | .hfma2 g d a b c m => Sys2Proof.Machine.execHfma2 g d a b c m s
  | .hmnmx2 g d a b max bf => Sys2Proof.Machine.execHmnmx2 g d a b max bf s
  | .fdot2 g d a b c m => Sys2Proof.Machine.execFdot2 g d a b c m s
  | .dadd g d a b m => Sys2Proof.Machine.execDadd g d a b m s
  | .dmul g d a b m => Sys2Proof.Machine.execDmul g d a b m s
  | .dfma g d a b c m => Sys2Proof.Machine.execDfma g d a b c m s
  | .ld g sp w d a off => Sys2Proof.Machine.execLd g sp w d a off s
  | .st g sp w ofl d a off => Sys2Proof.Machine.execSt g sp w ofl d a off s
  | .ldk g d a win b64 => Sys2Proof.Machine.execLdk g d a win b64 s
  | .ldacq g sp w sc d a off => Sys2Proof.Machine.execLdacq g sp w sc d a off s
  | .strel g sp w sc d a off => Sys2Proof.Machine.execStrel g sp w sc d a off s
  | .atom g op m d a b => Sys2Proof.Machine.execAtom g op m d a b s
  | .atomc g m d a b c => Sys2Proof.Machine.execAtomc g m d a b c s
  | .red g op m a b => Sys2Proof.Machine.execRed g op m a b s
  | .fence g sc => Sys2Proof.Machine.execFence g sc s
  | .fencea g mask => Sys2Proof.Machine.execFencea g mask s
  | .cwb g l2 a b => Sys2Proof.Machine.execCwb g l2 a b s
  | .cinv g l2 a b => Sys2Proof.Machine.execCinv g l2 a b s
  | .cpf g l2 a off => Sys2Proof.Machine.execCpf g l2 a off s
  | .slcdr g b => Sys2Proof.Machine.execSlcdr g b s
  | .cpy g ds ss d a b off => Sys2Proof.Machine.execCpy g ds ss d a b off s
  | .cpyt g ds ss d a b off => Sys2Proof.Machine.execCpyt g ds ss d a b off s
  | .cpyx g ds ss d a b off => Sys2Proof.Machine.execCpyx g ds ss d a b off s
  | .cpyo g ds ss d a b off => Sys2Proof.Machine.execCpyo g ds ss d a b off s
  | .cseal g d => Sys2Proof.Machine.execCseal g d s
  | .cwait g a => Sys2Proof.Machine.execCwait g a s
  | .shopen g a b => Sys2Proof.Machine.execShopen g a b s
  | .publish g sc a b => Sys2Proof.Machine.execPublish g sc a b s
  | .shdrop g a b => Sys2Proof.Machine.execShdrop g a b s
  | .put g ss ntf d a b off => Sys2Proof.Machine.execPut g ss ntf d a b off s
  | .get g ds ntf d a b off => Sys2Proof.Machine.execGet g ds ntf d a b off s
  | .mcast g a b c => Sys2Proof.Machine.execMcast g a b c s
  | .lreg g d a b c => Sys2Proof.Machine.execLreg g d a b c s
  | .ldereg g b => Sys2Proof.Machine.execLdereg g b s
  | .send g len a b c => Sys2Proof.Machine.execSend g len a b c s
  | .rpost g len d a b c => Sys2Proof.Machine.execRpost g len d a b c s
  | .rpoll g d a => Sys2Proof.Machine.execRpoll g d a s
  | .coll g a => Sys2Proof.Machine.execColl g a s
  | .skmrg g a b sh => Sys2Proof.Machine.execSkmrg g a b sh s
  | .tarm g d a b c => Sys2Proof.Machine.execTarm g d a b c s
  | .tadd g a b => Sys2Proof.Machine.execTadd g a b s
  | .trd g d a => Sys2Proof.Machine.execTrd g d a s
  | .tdisarm g d a => Sys2Proof.Machine.execTdisarm g d a s
  | .mma g t a b m => Sys2Proof.Machine.execMma g t a b m s
  | .mmas g t a b c m => Sys2Proof.Machine.execMmas g t a b c m s
  | .mmac g t a b m => Sys2Proof.Machine.execMmac g t a b m s
  | .mzero g t => Sys2Proof.Machine.execMzero g t s
  | .mrd g d t q => Sys2Proof.Machine.execMrd g d t q s
  | .mwr g t a q => Sys2Proof.Machine.execMwr g t a q s
  | .mld g t a => Sys2Proof.Machine.execMld g t a s
  | .mst g t gl cvt slot a => Sys2Proof.Machine.execMst g t gl cvt slot a s
  | .mrel g => Sys2Proof.Machine.execMrel g s
  | .skins g d a b c w => Sys2Proof.Machine.execSkins g d a b c w s
  | .skdel g d a b c w => Sys2Proof.Machine.execSkdel g d a b c w s
  | .skqry g d a b c => Sys2Proof.Machine.execSkqry g d a b c s
  | .skcard g d a c => Sys2Proof.Machine.execSkcard g d a c s
  | .skrank g d a b c => Sys2Proof.Machine.execSkrank g d a b c s
  | .skqtl g d a b c => Sys2Proof.Machine.execSkqtl g d a b c s
  | .skhash g d a b n => Sys2Proof.Machine.execSkhash g d a b n s
  | .skfold g sc a => Sys2Proof.Machine.execSkfold g sc a s
  | .skclr g sc a => Sys2Proof.Machine.execSkclr g sc a s
  | .skstat g d a j => Sys2Proof.Machine.execSkstat g d a j s
  | .skinv g a => Sys2Proof.Machine.execSkinv g a s
  | .clauseDispatch core => Sys2Proof.Machine.execClauseDispatch core s
  | .laneComplete w k => Sys2Proof.Machine.execLaneComplete w k s
  | .instructionRetire w => Sys2Proof.Machine.execInstructionRetire w s
  | .loadBind w id m => Sys2Proof.Machine.execLoadBind w id m s
  | .storePerform w id m => Sys2Proof.Machine.execStorePerform w id m s
  | .writeAcknowledged w id => Sys2Proof.Machine.execWriteAcknowledged w id s
  | .l1WritebackTimer core line key sector => Sys2Proof.Machine.execL1WritebackTimer core line key sector s
  | .l1PeriodicInvalidate core => Sys2Proof.Machine.execL1PeriodicInvalidate core s
  | .overflowSignatureClear slice => Sys2Proof.Machine.execOverflowSignatureClear slice s
  | .porterServe cluster => Sys2Proof.Machine.execPorterServe cluster s
  | .copyTransfer w id => Sys2Proof.Machine.execCopyTransfer w id s
  | .copyLand w id => Sys2Proof.Machine.execCopyLand w id s
  | .batchFinish w serial => Sys2Proof.Machine.execBatchFinish w serial s
  | .tileOpExecute w tile => Sys2Proof.Machine.execTileOpExecute w tile s
  | .weigherUpdate w id lane => Sys2Proof.Machine.execWeigherUpdate w id lane s
  | .mergeUnit w id unit => Sys2Proof.Machine.execMergeUnit w id unit s
  | .regionPublish w id => Sys2Proof.Machine.execRegionPublish w id s
  | .lawLostReport w addr desc => Sys2Proof.Machine.execLawLostReport w addr desc s
  | .cowTwinCopy part page => Sys2Proof.Machine.execCowTwinCopy part page s
  | .fillReroute k => Sys2Proof.Machine.execFillReroute k s
  | .doorbell q v => Sys2Proof.Machine.execDoorbell q v s
  | .hostRingCopy q => Sys2Proof.Machine.execHostRingCopy q s
  | .recordArrival q => Sys2Proof.Machine.execRecordArrival q s
  | .remoteLaunchDelivery p => Sys2Proof.Machine.execRemoteLaunchDelivery p s
  | .teamPlace part => Sys2Proof.Machine.execTeamPlace part s
  | .teamExit team => Sys2Proof.Machine.execTeamExit team s
  | .gridRetire grid => Sys2Proof.Machine.execGridRetire grid s
  | .retirementReport p => Sys2Proof.Machine.execRetirementReport p s
  | .retirementIncrement p => Sys2Proof.Machine.execRetirementIncrement p s
  | .preemptRequest ctx => Sys2Proof.Machine.execPreemptRequest ctx s
  | .contextResume ctx => Sys2Proof.Machine.execContextResume ctx s
  | .contextDefine ctx w0 root save => Sys2Proof.Machine.execContextDefine ctx w0 root save s
  | .contextDiscard ctx => Sys2Proof.Machine.execContextDiscard ctx s
  | .deadlineExpire team => Sys2Proof.Machine.execDeadlineExpire team s
  | .teamSave team => Sys2Proof.Machine.execTeamSave team s
  | .handlerEntry core => Sys2Proof.Machine.execHandlerEntry core s
  | .teamHalt team => Sys2Proof.Machine.execTeamHalt team s
  | .watchdogExpire w => Sys2Proof.Machine.execWatchdogExpire w s
  | .eventAppend ctx => Sys2Proof.Machine.execEventAppend ctx s
  | .pageServiceAnswer part ctx => Sys2Proof.Machine.execPageServiceAnswer part ctx s
  | .pageServiceRefuse part ctx => Sys2Proof.Machine.execPageServiceRefuse part ctx s
  | .correctedError e => Sys2Proof.Machine.execCorrectedError e s
  | .uncorrectableError e => Sys2Proof.Machine.execUncorrectableError e s
  | .readRequest p => Sys2Proof.Machine.execReadRequest p s
  | .write p => Sys2Proof.Machine.execWrite p s
  | .atomicOrRed p => Sys2Proof.Machine.execAtomicOrRed p s
  | .readOrAtomicResponse p => Sys2Proof.Machine.execReadOrAtomicResponse p s
  | .acknowledgement p => Sys2Proof.Machine.execAcknowledgement p s
  | .orderedFlagWrite p => Sys2Proof.Machine.execOrderedFlagWrite p s
  | .streamClose p => Sys2Proof.Machine.execStreamClose p s
  | .message p => Sys2Proof.Machine.execMessage p s
  | .multicastDelivery p => Sys2Proof.Machine.execMulticastDelivery p s
  | .collectiveChunk p => Sys2Proof.Machine.execCollectiveChunk p s
  | .negativeAcknowledgement p => Sys2Proof.Machine.execNegativeAcknowledgement p s
  | .remoteTimeout req => Sys2Proof.Machine.execRemoteTimeout req s
  | .flagHoldTimeout k => Sys2Proof.Machine.execFlagHoldTimeout k s
  | .treeBreak tree => Sys2Proof.Machine.execTreeBreak tree s
  | .treeCreate w => Sys2Proof.Machine.execTreeCreate w s
  | .treeRelease w => Sys2Proof.Machine.execTreeRelease w s
  | .packageReset => Sys2Proof.Machine.execPackageReset s
  | .functionReady f => Sys2Proof.Machine.execFunctionReady f s
  | .linkTraining fid inc proto links => Sys2Proof.Machine.execLinkTraining fid inc proto links s
  | .bar2Read off len => Sys2Proof.Machine.execBar2Read off len s
  | .bar2Write off data => Sys2Proof.Machine.execBar2Write off data s
  | .tlbi w => Sys2Proof.Machine.execTlbi w s
  | .keyLoad => Sys2Proof.Machine.execKeyLoad s
  | .keyZero => Sys2Proof.Machine.execKeyZero s
  | .partitionEnable part w => Sys2Proof.Machine.execPartitionEnable part w s
  | .partitionDisable part w => Sys2Proof.Machine.execPartitionDisable part w s
  | .redir part => Sys2Proof.Machine.execRedir part s
  | .energyWindowBoundary => Sys2Proof.Machine.execEnergyWindowBoundary s
  | .chargeExpire part k => Sys2Proof.Machine.execChargeExpire part k s
  | .snapshotArm part w => Sys2Proof.Machine.execSnapshotArm part w s
  | .snapshotCut part => Sys2Proof.Machine.execSnapshotCut part s
  | .carterDrainPage part page => Sys2Proof.Machine.execCarterDrainPage part page s
  | .snapshotRetry part => Sys2Proof.Machine.execSnapshotRetry part s
  | .snapshotAbort part => Sys2Proof.Machine.execSnapshotAbort part s
  | .registerWrite off w => Sys2Proof.Machine.execRegisterWrite off w s
  | .streamEntryCloseTimeout k => Sys2Proof.Machine.execStreamEntryCloseTimeout k s
  | .treeRequestStatus status tree => Sys2Proof.Machine.execTreeRequestStatus status tree s

end Sys2Proof.Machine
end

