-- ==== Sys2Proof/Machine/Run.lean ====
section
/-! DEFINITION. What a step is made of: the passage of time, the actions of the agenda, the next instruction of a warp; and a
warp set up to run one word (log 20). -/

namespace Sys2Proof.Machine

namespace State

/-! ### Time -/

/-- What waits in the package and may now go on: held flags and messages, host writes and a key load, fired operations and
launches. -/
def settled (s : State) : State :=
  let s := (barPump s.host.barPend.length s).keyPump
  let s := if s.fab.flags.isEmpty then s else s.pump
  let s := if s.fab.msgHeld.isEmpty then s else pumpMessages s.fab.msgHeld.length s
  if s.fab.armed.any Armed.due || !s.fab.reduces.isEmpty || s.fab.inbox.any (fun p => p.kind == .launch) then s.slotFreed else s

/-- Cycles pass. What the spec bounds in time happens by then: each dirty sector of an L1 is written back within 65,536
cycles, unless a snapshot holds its page (R158, R364), every L1 drops its clean lines once in 2^20 (R167), and a slice its
overflow signature 2^21 after its last eviction (R167). -/
def elapse (s : State) (n : Nat) : State := { s with clock := s.clock + n }.overdue

/-- The passage of a step: its number, the cycles it takes (log 1), and the warps that have become ready. -/
def passed (s : State) : State :=
  (({ s with stepNo := s.stepNo + 1 }.elapse (Config.stepCycles s.stepNo)).settled.fetches).noteReady

/-! ### Actions beside the rows of the table (log 2) -/

/-- An L1 evicts a line, its dirty bytes written back (R120); one that a snapshot holds stays (R364). -/
def evict (s : State) (c line key : Nat) : State :=
  match s.l1Find c line key with
  | none => s
  | some e =>
    if e.dirty.isEmpty then s.l1Drop c line key
    else if s.writeHeld (line % 2 ^ 33 * 128) then s
    else (s.l1Writeback c e fun _ => true).l1Drop c line key

/-- The packet longest queued on a link leaves, once the fabric is ready (R353); its requests count from now (R183, R415). -/
def sendHead (s : State) (link : Nat) : State :=
  match amGet [] s.fab.links link with
  | [] => s
  | p :: l =>
    if !s.ready.fabric then s
    else
      let s := s.modFab fun f => { f with links := amPut [] f.links link l }
      match p.kind with
      | .response => s
      | .ack => s
      | .nack => s
      | _ => s.departed p.req

/-- A fill reaches its slice: the line is there, its bytes as memory holds them. A fill that no longer belongs there waits for
row FILL_REROUTE (R348). -/
def fillHere (s : State) (k : Nat) : State :=
  match s.mem.fills[k]? with
  | none => s
  | some f =>
    if s.mem.l2Home (f.line * 128) ≠ f.slice || f.lost || s.keyWaits f.key then s
    else
      let s := s.setMem { s.mem with fills := s.mem.fills.eraseIdx k }
      match s.mem.l2Open f.slice f.line f.key f.cls (s.rclsOf f.slice f.cls) with
      | (none, m) => s.setMem m
      | (some e, m) => s.setMem (m.l2Put ([0, 1, 2, 3].foldl (fun e k => m.l2FillSector e k) e))

/-- A fill started for a line. -/
def fillNew (s : State) (pa key cls : Nat) : State :=
  if hasHome pa then
    s.setMem { s.mem with fills := s.mem.fills ++ [{ slice := s.mem.l2Home pa, line := pa / 128, key := key, cls := cls }] }
  else s

/-- The meters read new values (R92, R360). -/
def metered (s : State) (part mj pkg : Nat) : State :=
  (s.modPart part fun p => { p with emeter := mj }).modHost fun h => { h with epkg := pkg }

end State

/-! ### The next instruction of a warp -/

/-- A word at the position of the warp that acts: decoded and executed, or the fault of R229 that decoding finds, the
class being checked before the operands. -/
def runWord (word : DWord) (eng : Nat) (s : State) : Host.Outcome State Fault Refusal :=
  match decode word with
  | .ok i => exec i s
  | .error (.illegalOpcode _) => faultWord 0x01 s
  | .error (.illegalOperand _) => faultWord (if classAllows eng (wordGroup word) then 0x03 else 0x02) s

/-- The next instruction of the warp that acts; without one, time passes. -/
def runNext (s : State) : Host.Outcome State Fault Refusal :=
  match s.cur with
  | none => .next s
  | some w =>
    match s.warp? w with
    | none => .next s
    | some x =>
      match x.cursor with
      | none => .next s
      | some c =>
        match c.words with
        | [] => .next s
        | word :: _ => runWord word c.eng s

/-- What an action of the agenda does. -/
def act (a : Action) (s : State) : Host.Outcome State Fault Refusal :=
  match a with
  | .event i => exec i s
  | .turn w => runNext (s.setCur (some w))
  | .tick n => .next (s.elapse n)
  | .evictL1 c line key => .next (s.evict c line key)
  | .evictTlb c ctx vpage => .next (s.modCore c fun x => { x with tlb := x.tlb.filter fun t => !(t.ctx == ctx && t.vpage == vpage) })
  | .dropConst c a => .next (s.modCore c fun x => { x with constCache := amErase x.constCache a })
  | .dropCode c a => .next (s.modCore c fun x => { x with codeCache := amErase x.codeCache a })
  | .dropDesc c a => .next (s.modCore c fun x => { x with descCache := amErase x.descCache a })
  | .linkSend l => .next (s.sendHead l)
  | .meter part mj pkg => .next (s.metered part mj pkg)
  | .fillStart pa key cls => .next (s.fillNew pa key cls)
  | .fillArrive k => .next (s.fillHere k)
  | .treeJoin tree members => .next (if members.contains s.fab.fid then s.joinTree tree members else s)
  | .treeLeave tree => .next (if s.treeBusy tree then s else s.leaveTree tree)
  | .switchReduce tree step idx parts => .next (s.switchReduce tree step idx parts)
  | .hostRead off => .next (s.emit (.reg off (s.apertureRead off)))
  | .capRead off => .next (s.emit (.reg (2 ^ 24 + off) (s.capRead off)))

/-! ### One warp with one word to run (log 20) -/

/-- The launch record of the one grid that is set up: one warp of a role, 24 granules, 16 tiles. -/
def fetchRecord (role : Nat) : List Byte :=
  leBytes 8 1 ++ leBytes 8 0 ++ leBytes 4 1 ++ leBytes 4 1 ++ leBytes 4 1 ++ leBytes 4 1 ++ leBytes 16 role ++
    leBytes 3 0x181818 ++ leBytes 1 16 ++ leBytes 4 0 ++ leBytes 4 2048 ++ List.replicate 452 0

/-- The role that may run the group of a word, and its engine class (Table 11-2). -/
def fetchRole (grp : Nat) : Nat := if grp = 5 then 1 else if grp = 6 then 2 else 0
def fetchEng (grp : Nat) : Nat := if grp = 5 then 1 else if grp = 6 then 2 else if grp = 7 then 3 else 0

/-- A system context with one partition, a page table that maps its code page, a clause that holds the word at virtual
address 0, and one warp inside that clause, whose turn it is. -/
def State.placeWord (s : State) (word : DWord) : State :=
  let grp := wordGroup word
  let hdr := 0xB00000FFFFFFFC10 + fetchEng grp
  let put := fun (m : Memory) (a x : Nat) => Memory.write m a (leBytes 8 x)
  let hbm := put (put (put (put (put s.mem.hbm 0x10000 0x2000301) 0x20000 0x3000301) 0x30000 0x1000007) 0x80000 hdr)
    0x80008 word.toNat
  let g : Grid := { Grid.start 1 0 0 0 1 0 none 0 (fetchRecord (fetchRole grp)) with started := true, placed := 1 }
  let cur : Cursor := { hdr := 0, pc := 8, last := 16, live := allLanes, rmask := allLanes, eng := fetchEng grp,
                        words := [word] }
  let x : Warp := { Warp.start (fetchRole grp) 0 0 24 (if fetchRole grp = 2 then 16 else 0) s.clock
                      { addr := 0, mask := 0, prio := 0, passes := 0, rejoin := false } with
                    fr := [], cursor := some cur, port := some 0 }
  { s with
    agenda := []
    cur := some ⟨0, 0⟩
    mem := { s.mem with hbm := hbm }
    ctxs := amSet s.ctxs 1 { Ctx.reset with v := true, sysc := true, root := 0x10000 }
    parts := amSet s.parts 0 { Part.reset with en := true, stackMask := 4095, hubMask := 65535 }
    grids := amSet s.grids 0 g
    nextGrid := max s.nextGrid 1
    teams := amSet s.teams 0 (Team.start 0 0 0 0 1 0 32 g)
    nextTeam := max s.nextTeam 1
    warps := amSet s.warps 0 x }

end Sys2Proof.Machine
end

