-- ==== Sys2Proof/Machine/Step.lean ====
section
/-! DEFINITION. One step of the package: time passes, and then the first action of the agenda happens, or else the next
instruction of the warp that acts. -/

namespace Sys2Proof.Machine

/-- One step. -/
def step (s : State) : Host.Outcome State Fault Refusal :=
  match s.agenda with
  | [] => runNext s.passed
  | a :: l => act a (s.passed.setAgenda l)

/-- `s` with a word as the next instruction of the warp that acts (log 20). -/
def State.withFetchWord (s : State) (nbits w : Nat) : State := s.placeWord (BitVec.ofNat 64 (w % 2 ^ nbits))

end Sys2Proof.Machine
end

