-- ==== Sys2Proof/Safety.lean ====
section
/-! DEFINITION. The terms in which claims about the machine are stated: which warp acts, where and on what; the state that
a dispatch leaves; the results of an instruction written to its warp; and the canonical form of the state. -/

namespace Sys2Proof.Machine

/-! ### The instruction of a warp -/

/-- The lanes for which an instruction at a position is active (R26, R66). -/
def activeMask (x : Warp) (c : Cursor) (i : Instr) : Mask := c.rmask &&& x.guardMask (guardOf i)

/-- Warp `w` acts, inside a clause at position `c`, and nothing keeps it from dispatching `i` there: it holds a port, has
lanes to run, the checks of R229 pass, and the window and the counters have room (R63, R67, R68, R229, R232). -/
structure Acting (s : State) (w : WarpId) (x : Warp) (c : Cursor) (i : Instr) : Prop where
  cur : s.cur = some w
  warp : s.warp? w = some x
  place : x.cursor = some c
  free : State.canDispatch x = true
  legal : dispatchCheck (s.slots w) x x.inHandler (s.isSys w.team) c.eng i = none
  room : s.roomFor w x i = true

/-- The same, every older instruction of the warp having retired and the operands of `i` being ready, so that `i` executes at
once (R69, R70). -/
structure Oldest (s : State) (w : WarpId) (x : Warp) (c : Cursor) (i : Instr) : Prop extends Acting s w x c i where
  alone : x.window = []
  ready : s.opsReady w x [] i c.rmask = true

/-- The window entry of `i` as it dispatches at a position (R67). -/
def entryAt (x : Warp) (c : Cursor) (i : Instr) : WEntry :=
  { seq := x.seq, instr := i, pc := c.pc, word := c.words.headD 0, mask := c.rmask, frontier := x.fr, cursor := c,
    result := .none }

/-- The position that follows. -/
def Cursor.next (c : Cursor) : Cursor := { c with pc := c.pc + 8, rmask := c.live, words := c.words.drop 1 }

/-- A warp as the dispatch of `i` leaves it: its entry in the window, its position moved on, its counters raised (R66, R67,
R232). -/
def Warp.pushed (x : Warp) (c : Cursor) (i : Instr) : Warp :=
  { x with
    seq := x.seq + 1
    window := x.window ++ [entryAt x c i]
    cursor := some c.next
    ctr := (countersOf i).foldl (fun k n => k.add n true) x.ctr }

/-- The state as the dispatch of `i` leaves it. -/
def State.dispatched (s : State) (w : WarpId) (x : Warp) (c : Cursor) (i : Instr) : State := s.setWarp w (x.pushed c i)

/-- A warp that has dispatched an instruction and retired it, without a result: its position moved on, the time of its last
retirement set (R71, R378). -/
def Warp.past (x : Warp) (c : Cursor) (now : Nat) : Warp :=
  { x with seq := x.seq + 1, window := [], cursor := some c.next, lastRetire := now, stage := [], refused := [], lostWords := [] }

/-- A warp whose oldest window entry has retired, leaving no operation behind (R71). -/
def Warp.retired (x : Warp) (now : Nat) : Warp :=
  { x with window := x.window.drop 1, lastRetire := now, stage := [], refused := [], lostWords := [] }

/-! ### Results -/

/-- A register result: the field number of the register, the tag that a full mask gives it, and the word of each lane. -/
structure RegOut where
  reg : Nat
  tag : Tag
  val : Nat → Word

/-- Register results written under a mask, in order. -/
def Warp.writeAll (x : Warp) (m : Mask) (l : List RegOut) : Warp := l.foldl (fun x o => x.writeReg o.reg m o.tag o.val) x

/-- The lanes that a frontier holds at an address. -/
def lanesAt (fr : List FEntry) (a : Nat) : Mask :=
  fr.foldl (fun m e => if e.addr = a then m ||| e.mask else m) 0

/-! ### What a state keeps -/

/-- The registers, predicates, tiles and counters of every warp, and every team and grid, are as they were. -/
structure KeepsData (s t : State) : Prop where
  warps : ∀ v : WarpId, (t.warp? v).map (fun y => (y.regs, y.preds, y.hregs, y.pend, y.tiles)) =
    (s.warp? v).map (fun y => (y.regs, y.preds, y.hregs, y.pend, y.tiles))
  counters : ∀ v : WarpId, (t.warp? v).map Warp.ctr = (s.warp? v).map Warp.ctr
  grids : t.grids = s.grids

/-- The canonical form of the state's maps: memory lists no zero byte, and every map of the state has its keys rising. -/
structure Canonical (s : State) : Prop where
  hbm : s.mem.hbm.wf = true
  frames : s.mem.frameMem.wf = true
  warps : amSorted s.warps = true
  teams : amSorted s.teams = true
  grids : amSorted s.grids = true
  queues : amSorted s.queues = true
  ctxs : amSorted s.ctxs = true
  parts : amSorted s.parts = true
  cores : amSorted s.mem.cores = true

end Sys2Proof.Machine
end

