-- ==== Sys2Proof/Certificates/Slice0/Tables.lean ====
section
/-! DEFINITION. The tables of the spec in the words of the spec, as the statements use them: what each register and predicate
instruction writes in each lane (Tables 4-2, 12-3, 12-6 and 12-7, R257 to R265; Tables 13-2 and 13-5 for the formats). -/

namespace Sys2Proof.Claims

open Sys2Proof.Machine

/-! ### Operand B -/

/-- Operand B of an instruction of 32 or of 64 bits. -/
def opB : Instr → Option (SrcB ⊕ SrcB64)
  | .iadd _ _ _ b _ => some (.inl b)
  | .isub _ _ _ b _ => some (.inl b)
  | .imul _ _ _ b => some (.inl b)
  | .imulh _ _ _ b _ => some (.inl b)
  | .iadd64 _ _ _ b => some (.inr b)
  | .isub64 _ _ _ b => some (.inr b)
  | .imin _ _ _ b _ => some (.inl b)
  | .imax _ _ _ b _ => some (.inl b)
  | .idiv _ _ _ b _ => some (.inl b)
  | .irem _ _ _ b _ => some (.inl b)
  | .lea _ _ _ b _ _ => some (.inl b)
  | .and _ _ _ b => some (.inl b)
  | .or _ _ _ b => some (.inl b)
  | .xor _ _ _ b => some (.inl b)
  | .andn _ _ _ b => some (.inl b)
  | .shl _ _ _ b => some (.inl b)
  | .shr _ _ _ b => some (.inl b)
  | .sar _ _ _ b => some (.inl b)
  | .rotl _ _ _ b => some (.inl b)
  | .bfx _ _ _ b _ => some (.inl b)
  | .isetp _ _ _ b _ _ => some (.inl b)
  | .sel _ _ _ b _ => some (.inl b)
  | .mov _ _ b => some (.inl b)
  | .shfl _ _ _ b _ => some (.inl b)
  | .bcast _ _ _ b => some (.inl b)
  | .cvtn _ _ _ b _ => some (.inl b)
  | .cvtw _ _ _ b _ => some (.inl b)
  | .amax _ _ _ b _ _ => some (.inl b)
  | .fadd _ _ _ b _ => some (.inl b)
  | .fsub _ _ _ b _ => some (.inl b)
  | .fmul _ _ _ b _ => some (.inl b)
  | .fmin _ _ _ b => some (.inl b)
  | .fmax _ _ _ b => some (.inl b)
  | .fsetp _ _ _ b _ => some (.inl b)
  | .fdiv _ _ _ b _ => some (.inl b)
  | .fscale _ _ _ b _ => some (.inl b)
  | .hadd2 _ _ _ b _ => some (.inl b)
  | .hmul2 _ _ _ b _ => some (.inl b)
  | .hmnmx2 _ _ _ b _ _ => some (.inl b)
  | .dadd _ _ _ b _ => some (.inr b)
  | .dmul _ _ _ b _ => some (.inr b)
  | _ => none

/-- A conversion whose slot has no scale format: its operand B is ignored (R287). -/
def noScale (slot : Nat → Slot) : Instr → Bool
  | .cvtn _ _ _ _ n => (slot n).sfmt == 0
  | .cvtw _ _ _ _ n => (slot n).sfmt == 0
  | _ => false

/-- The registers that operand B of an instruction comes to, none where it cannot be read now, and the state after it has been
read (R235, R257, R397); an operand that is ignored is not read (R287). -/
def readB (s : State) (w : WarpId) (x : Warp) (i : Instr) : Option (List VReg) × State :=
  match opB i with
  | none => (some [], s)
  | some (.inl b) =>
    if noScale (s.slots w) i then (some [], s)
    else
    match evalB s w x b with
    | (.ok v, s) => (some [v], s)
    | (_, s) => (none, s)
  | some (.inr b) =>
    match evalB64 s w x b with
    | ((.ok lo, .ok hi), s) => (some [lo, hi], s)
    | (_, s) => (none, s)

/-! ### Integer results in the words of Table 12-6: exact values, then a word of them -/

/-- The word of an exact value. -/
def wd (z : Int) : Word := BitVec.ofInt 32 z
/-- The 64-bit value of an exact value. -/
def dw (z : Int) : DWord := BitVec.ofInt 64 z

/-- A value clamped to a range. -/
def clamp (lo hi z : Int) : Int := max lo (min hi z)

/-- A word as `IADD`, `IMIN`, … read it: signed, or unsigned under `.u`. -/
def rdInt (u : Bool) (p : Word) : Int := if u then (p.toNat : Int) else p.toInt

/-- `IADD` and `ISUB` of an exact sum or difference: `z` of the signed words, `n` of the unsigned ones. -/
def addVal (k : SatKind) (z n : Int) : Word :=
  match k with
  | .wrap => wd n
  | .sat => wd (clamp (-2 ^ 31) (2 ^ 31 - 1) z)
  | .usat => wd (clamp 0 (2 ^ 32 - 1) n)

/-- `IDIV` (R258). -/
def divVal (u : Bool) (p q : Word) : Word :=
  if q.toNat = 0 then wd (-1) else wd ((rdInt u p).tdiv (rdInt u q))

/-- `IREM` (R258). -/
def remVal (u : Bool) (p q : Word) : Word :=
  if q.toNat = 0 then p else wd ((rdInt u p).tmod (rdInt u q))

/-- The range of `ISAT`. -/
def satRange : SatRange → Int × Int
  | .i8 => (-2 ^ 7, 2 ^ 7 - 1)
  | .n8 => (0, 2 ^ 8 - 1)
  | .i16 => (-2 ^ 15, 2 ^ 15 - 1)
  | .n16 => (0, 2 ^ 16 - 1)
  | .n32 => (0, 2 ^ 31 - 1)

/-- A number's low bits read as two's complement, or as unsigned under `u`. -/
def low (u : Bool) (bits n : Nat) : Int :=
  let y := n % 2 ^ bits
  if u || y < 2 ^ (bits - 1) then (y : Int) else (y : Int) - 2 ^ bits

/-- A dot product of `n` elements of `bits` bits. -/
def dotVal (n bits : Nat) (ua ub : Bool) (p q r : Word) : Word :=
  wd (r.toInt + ((List.range n).map fun k =>
    low ua bits (p.toNat / 2 ^ (bits * k)) * low ub bits (q.toNat / 2 ^ (bits * k))).sum)

/-- A word given bit by bit. -/
def bitsVal (f : Nat → Bool) : Word := BitVec.ofNat 32 ((List.range 32).map fun k => if f k then 2 ^ k else 0).sum

/-- The position and the length of a field (R259). -/
def fieldPos (q : Word) : Nat := q.toNat % 32
def fieldLen (q : Word) : Nat := min (q.toNat / 2 ^ 8 % 64) 32

/-- `BFX` (R259). -/
def bfxVal (sx : Bool) (p q : Word) : Word :=
  if fieldLen q = 0 then wd 0 else wd (low (!sx) (fieldLen q) (p.toNat / 2 ^ fieldPos q))

/-- `BFI` (R259): the low bits of `p` over the field of `r`. -/
def bfiVal (p q r : Word) : Word :=
  bitsVal fun k => if fieldPos q ≤ k && k < fieldPos q + fieldLen q then p.getLsbD (k - fieldPos q) else r.getLsbD k

/-- `PRMT` (R259): each byte chosen by four bits of `r` among the eight of `p` and `q`, or its sign bit eight times. -/
def prmtVal (p q r : Word) : Word :=
  bitsVal fun k =>
    let sel := r.toNat / 16 ^ (k / 8) % 16
    let src := fun b => if sel % 8 < 4 then p.getLsbD (8 * (sel % 8) + b) else q.getLsbD (8 * (sel % 8 - 4) + b)
    if 8 ≤ sel then src 7 else src (k % 8)

/-- A comparison (R260). -/
def cmpVal (cc : IntCmp) (u : Bool) (p q : Word) : Bool :=
  match cc with
  | .eq => decide (rdInt u p = rdInt u q)
  | .ne => decide (rdInt u p ≠ rdInt u q)
  | .lt => decide (rdInt u p < rdInt u q)
  | .le => decide (rdInt u p ≤ rdInt u q)
  | .gt => decide (rdInt u q < rdInt u p)
  | .ge => decide (rdInt u q ≤ rdInt u p)

/-! ### Tags (Table 4-2) -/

/-- The row for every other operation: uniform where every source is. -/
def tagOf (l : List VReg) : Tag := if ∀ r ∈ l, r.tag = .uniform then .uniform else .general

/-! ### Special registers (Table 12-3) -/

/-- The value of a special register other than `sr_lane` (Tables 12-3 to 12-5), for a warp of a team and its grid. -/
def srVal (s : State) (w : WarpId) (x : Warp) (tm : Team) (g : Grid) : Nat → Nat
  | 1 => w.widx
  | 2 => tm.idx % g.gdx
  | 3 => tm.idx / g.gdx % g.gdy
  | 4 => tm.idx / (g.gdx * g.gdy)
  | 5 => g.gdx
  | 6 => g.gdy
  | 7 => g.gdz
  | 8 => tm.lcluster * 4 + w.widx % 4
  | 9 => g.rank
  | 10 => g.nrank
  | 11 => g.depth
  | 12 => g.ftv
  | 13 => if (s.ctx g.ctx).preq then 1 else 0
  | 14 => match tm.deadline with
    | some d => d - s.clock
    | none => tm.pqdl
  | 15 => tm.fstat
  | 20 => s.clock % 2 ^ 64
  | 21 => min (s.part g.part).emeter (2 ^ 32 - 1)
  | 40 => s.mem.l2dom.toNat
  | 41 => (if (s.ctx g.ctx).sysc then 1 else 0) + (if (s.ctx g.ctx).lawf then 2 else 0) + (if g.det then 4 else 0)
  | n =>
    if 16 ≤ n && n ≤ 19 then x.fpend.getD (n - 16) 0 % 2 ^ 24
    else if 32 ≤ n && n ≤ 39 then (s.mem.l2hash.getD (n - 32) 0).toNat
    else 0

/-! ### What each instruction writes -/

/-- One word to D, from one source. -/
def out1 (x : Warp) (d a : Reg) (f : Word → Word) : List RegOut := [⟨d.field, tagOf [x.reg a.field], fun k => f (x.rd a k)⟩]

/-- One word to D, from A and B under a tag rule. -/
def out2 (x : Warp) (B : List VReg) (d a : Reg) (t : VReg → VReg → Tag) (f : Word → Word → Word) : List RegOut :=
  let b := B.headD zeroReg
  [⟨d.field, t (x.reg a.field) b, fun k => f (x.rd a k) (b.at k)⟩]

/-- One word to D, from three registers. -/
def out3 (x : Warp) (d a b c : Reg) (f : Word → Word → Word → Word) : List RegOut :=
  [⟨d.field, tagOf [x.reg a.field, x.reg b.field, x.reg c.field], fun k => f (x.rd a k) (x.rd b k) (x.rd c k)⟩]

/-- A 64-bit value to a pair, low word first (R235). -/
def outPair (d : Nat) (t : Tag) (f : Nat → DWord) : List RegOut :=
  [⟨d, t, fun k => loWord (f k)⟩, ⟨Warp.upper d, t, fun k => hiWord (f k)⟩]

/-- The two words of a pair source. -/
def two (x : Warp) (n : Nat) : List VReg := [x.reg n, x.reg (Warp.upper n)]

/-- The rule of two sources of which none is affine. -/
def tagTwo (a b : VReg) : Tag := tagOf [a, b]

/-- The words that a group 1 instruction writes (Table 12-6), `B` being operand B. -/
def integerOuts (x : Warp) (m : Mask) (B : List VReg) : Instr → Option (List RegOut)
  | .iadd _ d a _ k => some (out2 x B d a (tagIadd k false) fun p q => addVal k (p.toInt + q.toInt) (p.toNat + q.toNat))
  | .isub _ d a _ k => some (out2 x B d a (tagIadd k true) fun p q => addVal k (p.toInt - q.toInt) ((p.toNat : Int) - q.toNat))
  | .imul _ d a _ => some (out2 x B d a tagMul fun p q => wd (p.toInt * q.toInt))
  | .imulh _ d a _ u => some (out2 x B d a tagTwo fun p q => wd ((rdInt u p * rdInt u q) / 2 ^ 32))
  | .imad _ d a b c => some (out3 x d a b c fun p q r => wd (p.toInt * q.toInt + r.toInt))
  | .imadw _ d a b c u => some (outPair d.field (tagOf ([x.reg a.field, x.reg b.field] ++ two x c.field)) fun k =>
      dw (rdInt u (x.rd a k) * rdInt u (x.rd b k) + (x.rd64 c k).toNat))
  | .iadd64 _ d a _ => some (outPair d.field (tagOf (two x a.field ++ B)) fun k =>
      dw ((x.rd64 a k).toNat + (joinWords ((B.headD zeroReg).at k) ((B.getD 1 zeroReg).at k)).toNat))
  | .isub64 _ d a _ => some (outPair d.field (tagOf (two x a.field ++ B)) fun k =>
      dw ((x.rd64 a k).toNat - (joinWords ((B.headD zeroReg).at k) ((B.getD 1 zeroReg).at k)).toNat))
  | .imin _ d a _ u => some (out2 x B d a tagTwo fun p q => wd (min (rdInt u p) (rdInt u q)))
  | .imax _ d a _ u => some (out2 x B d a tagTwo fun p q => wd (max (rdInt u p) (rdInt u q)))
  | .iabs _ d a sat => some (out1 x d a fun p => wd (if sat then min |p.toInt| (2 ^ 31 - 1) else |p.toInt|))
  | .ineg _ d a sat => some (out1 x d a fun p => wd (if sat then min (-p.toInt) (2 ^ 31 - 1) else -p.toInt))
  | .isat _ d a r => some (out1 x d a fun p => wd (clamp (satRange r).1 (satRange r).2 p.toInt))
  | .idiv _ d a _ u => some (out2 x B d a tagTwo (divVal u))
  | .irem _ d a _ u => some (out2 x B d a tagTwo (remVal u))
  | .idot4 _ d a b c ua ub => some (out3 x d a b c (dotVal 4 8 ua ub))
  | .idot2 _ d a b c ua ub => some (out3 x d a b c (dotVal 2 16 ua ub))
  | .lea _ d a _ sh sx => some (outPair d.field (tagOf (two x a.field ++ B)) fun k =>
      dw ((x.rd64 a k).toNat + rdInt (!sx) ((B.headD zeroReg).at k) * 2 ^ sh))
  | .and _ d a _ => some (out2 x B d a tagTwo fun p q => bitsVal fun k => p.getLsbD k && q.getLsbD k)
  | .or _ d a _ => some (out2 x B d a tagTwo fun p q => bitsVal fun k => p.getLsbD k || q.getLsbD k)
  | .xor _ d a _ => some (out2 x B d a tagTwo fun p q => bitsVal fun k => p.getLsbD k != q.getLsbD k)
  | .andn _ d a _ => some (out2 x B d a tagTwo fun p q => bitsVal fun k => p.getLsbD k && !q.getLsbD k)
  | .not _ d a => some (out1 x d a fun p => bitsVal fun k => !p.getLsbD k)
  | .lop3 _ d a b lut => some (out3 x d a b d fun p q r => bitsVal fun k =>
      lut.getLsbD (4 * (r.getLsbD k).toNat + 2 * (q.getLsbD k).toNat + (p.getLsbD k).toNat))
  | .shl _ d a _ => some (out2 x B d a tagShl fun p q => bitsVal fun k => q.toNat ≤ k && p.getLsbD (k - q.toNat))
  | .shr _ d a _ => some (out2 x B d a tagTwo fun p q => bitsVal fun k => p.getLsbD (k + q.toNat))
  | .sar _ d a _ => some (out2 x B d a tagTwo fun p q => bitsVal fun k => p.getLsbD (min (k + q.toNat) 31))
  | .rotl _ d a _ => some (out2 x B d a tagTwo fun p q => bitsVal fun k => p.getLsbD ((k + 32 - q.toNat % 32) % 32))
  | .funl _ d a b c => some (out3 x d a b c fun p q r => bitsVal fun k =>
      if r.toNat % 32 ≤ k then p.getLsbD (k - r.toNat % 32) else q.getLsbD (k + 32 - r.toNat % 32))
  | .funr _ d a b c => some (out3 x d a b c fun p q r => bitsVal fun k =>
      if k + r.toNat % 32 < 32 then q.getLsbD (k + r.toNat % 32) else p.getLsbD (k + r.toNat % 32 - 32))
  | .popc _ d a => some (out1 x d a fun p => wd ((List.range 32).filter fun k => p.getLsbD k).length)
  | .clz _ d a => some (out1 x d a fun p => wd (((List.range 32).find? fun k => p.getLsbD (31 - k)).getD 32))
  | .ctz _ d a => some (out1 x d a fun p => wd (((List.range 32).find? fun k => p.getLsbD k).getD 32))
  | .brev _ d a => some (out1 x d a fun p => bitsVal fun k => p.getLsbD (31 - k))
  | .bfx _ d a _ sx => some (out2 x B d a tagTwo (bfxVal sx))
  | .bfi _ d a b c => some (out3 x d a b c bfiVal)
  | .prmt _ d a b c => some (out3 x d a b c prmtVal)
  | .sel _ d a _ pc => some [⟨d.field, .general, fun k =>
      if (x.pred pc).getLsbD k then x.rd a k else (B.headD zeroReg).at k⟩]
  | .mov _ d _ => some [⟨d.field, (B.headD zeroReg).tag, (B.headD zeroReg).at⟩]
  | .movi _ d v => some [⟨d.field, .uniform, fun _ => v⟩]
  | .movu _ d b => some [⟨d.field, .uniform, fun _ => x.rd b ((lowest m).getD 0)⟩]
  | _ => none

/-- The lane that `SHFL` reads (R263). -/
def shflFrom (md : ShflMode) (k b : Nat) : Nat :=
  match md with
  | .idx => b % 32
  | .up => if b ≤ k then k - b else k
  | .down => if k + b < 32 then k + b else k
  | .xor => k ^^^ (b % 32)

/-- The words that the cross-lane instructions and those between predicates and registers write (Table 12-7). -/
def crossOuts (x : Warp) (m : Mask) (B : List VReg) : Instr → Option (List RegOut)
  | .p2v _ d pa => some [⟨d.field, .uniform, fun _ => x.pred pa⟩]
  | .pcnt _ d pa => some [⟨d.field, .uniform, fun _ =>
      wd ((List.range 32).filter fun k => (x.pred pa).getLsbD k && m.getLsbD k).length⟩]
  | .shfl _ d a _ md => some [⟨d.field, .general, fun k => x.rd a (shflFrom md k ((B.headD zeroReg).at k).toNat)⟩]
  | .bcast _ d a _ => some [⟨d.field, .uniform, fun _ =>
      x.rd a (((B.headD zeroReg).at ((lowest m).getD 0)).toNat % 32)⟩]
  | .redux _ d a op => some [⟨d.field, .uniform, fun _ =>
      (xlBelow (redOp op) (fun k => if m.getLsbD k then some (x.rd a k) else none) 32).getD 0⟩]
  | .scan _ d a op excl => some [⟨d.field, .general, fun k =>
      (xlBelow (redOp op) (fun j => if m.getLsbD j then some (x.rd a j) else none) (if excl then k else k + 1)).getD
        (redIdentity op)⟩]
  | .match _ d a b64 => some [⟨d.field, .general, fun k => bitsVal fun j => m.getLsbD j && x.rd a j == x.rd a k &&
      (!b64 || (x.reg (Warp.upper a.field)).at j == (x.reg (Warp.upper a.field)).at k)⟩]
  | _ => none

/-- The predicate bits that an instruction writes (R260, R262, R269, Table 12-7). -/
def predOuts (x : Warp) (m : Mask) (B : List VReg) : Instr → Option (Nat × (Nat → Bool))
  | .isetp _ pd a _ cc u => some (pd, fun k => cmpVal cc u (x.rd a k) ((B.headD zeroReg).at k))
  | .fsetp _ pd a _ cc => some (pd, fun k => fltCmp cc (f32 (x.rd a k)) (f32 ((B.headD zeroReg).at k)))
  | .plop3 _ pd pa pb lut => some (pd, fun k =>
      lut.getLsbD (4 * ((x.pred pd).getLsbD k).toNat + 2 * ((x.pred pb).getLsbD k).toNat + ((x.pred pa).getLsbD k).toNat))
  | .v2p _ pd a mask => some (pd, fun k => if mask then (x.rd a k).getLsbD k else decide (x.rd a k ≠ 0))
  | .vote _ pd pa md => some (pd, fun _ =>
      let yes := fun k => (x.pred pa).getLsbD k
      let act := (List.range 32).filter fun k => m.getLsbD k
      match md with
      | .all => act.all yes
      | .any => act.any yes
      | .eq => act.all yes || act.all fun k => !yes k)
  | .elect _ pd => some (pd, fun k => m.getLsbD k && (List.range k).all fun j => !m.getLsbD j)
  | _ => none

/-- The words that a conversion writes (R284 to R291); `B` is empty where operand B is ignored. -/
def convertOuts (slot : Nat → Slot) (x : Warp) (m : Mask) (B : List VReg) : Instr → Option (List RegOut)
  | .cvtif _ d a rnd u q w => some (cvt x d a (q == .f64) w (laneCvtif rnd u q w))
  | .cvtfi _ d a rnd u q w => some (cvt x d a w (q == .f64) (laneCvtfi rnd u q w))
  | .cvtff _ d a rnd q p => some (cvt x d a (q == .f64) (p == .f64) (laneCvtff rnd q p))
  | .cvtn _ d a _ n =>
    let srcs := (List.range (slot n).words).map fun j => x.reg (a.field + j)
    some [⟨d.field, tagOf (B.headD zeroReg :: srcs), fun k =>
      laneCvtn (slot n) k ((B.headD zeroReg).at k) (srcs.map fun r => r.at k)⟩]
  | .cvtw _ d a _ n => some ((List.range (slot n).words).map fun j =>
      ⟨d.field + j, tagOf [x.reg a.field, B.headD zeroReg], fun k =>
        (laneCvtw (slot n) ((B.headD zeroReg).at k) (x.rd a k)).getD j 0⟩)
  | .cbdec _ d a q hi => some ((List.range (cbRegs q)).map fun j =>
      ⟨d.field + j, tagOf [x.reg a.field], fun k => (laneCbdec q hi (x.rd a k)).getD j 0⟩)
  | .scalq _ d a n => some (out1 x d a (laneScalq (slot n)))
  | .amax _ d a _ warp q =>
    let v := fun k => laneAmax q (x.rd a k) ((B.headD zeroReg).at k)
    if warp then
      some [⟨d.field, .uniform, fun _ => (xlBelow laneFmax (fun k => if m.getLsbD k then some (v k) else none) 32).getD 0⟩]
    else some [⟨d.field, tagOf [x.reg a.field, B.headD zeroReg], v⟩]
  | _ => none
where
  /-- A conversion between formats of 32 or 64 bits. -/
  cvt (x : Warp) (d a : Reg) (d64 s64 : Bool) (f : DWord → DWord) : List RegOut :=
    let t := tagOf (if s64 then two x a.field else [x.reg a.field])
    let v := fun k => f (if s64 then x.rd64n a.field k else (x.rd a k).setWidth 64)
    if d64 then outPair d.field t v else [⟨d.field, t, fun k => loWord (v k)⟩]

/-- The words that a floating-point instruction writes (R267 to R283); `ftv` is the grid's function-table version. -/
def floatOuts (ftv : Nat) (x : Warp) (B : List VReg) : Instr → Option (List RegOut)
  | .fadd _ d a _ md => some (out2 x B d a tagTwo fun p q =>
      res32 md (((f32 p).negIf md.na).add (isDown md.rnd) ((f32 q).negIf md.nb)))
  | .fsub _ d a _ md => some (out2 x B d a tagTwo fun p q =>
      res32 md (((f32 p).negIf md.na).add (isDown md.rnd) ((f32 q).negIf md.nb).neg))
  | .fmul _ d a _ md => some (out2 x B d a tagTwo fun p q => res32 md (((f32 p).negIf md.na).mul ((f32 q).negIf md.nb)))
  | .ffma _ d a b c md => some (out3 x d a b c fun p q r =>
      res32 md ((((f32 p).negIf md.na).mul ((f32 q).negIf md.nb)).add (isDown md.rnd) ((f32 r).negIf md.nc)))
  | .fmin _ d a _ => some (out2 x B d a tagTwo laneFmin)
  | .fmax _ d a _ => some (out2 x B d a tagTwo laneFmax)
  | .fclass _ d a => some (out1 x d a laneFclass)
  | .frnd _ d a rnd => some (out1 x d a (laneFrnd rnd))
  | .frcp _ d a => some (out1 x d a fun p => w32 (floatFn .rcp ftv p.toNat))
  | .frsq _ d a => some (out1 x d a fun p => w32 (floatFn .rsq ftv p.toNat))
  | .fsqrt _ d a rnd => some (out1 x d a fun p => w32 (fmtF32.round (.of rnd) false (f32 p).sqrt))
  | .fdiv _ d a _ rnd => some (out2 x B d a tagTwo fun p q => w32 (fmtF32.round (.of rnd) false ((f32 p).div (f32 q))))
  | .fexpf _ d a => some (out1 x d a fun p => w32 (floatFn .exp2 ftv p.toNat))
  | .flogf _ d a => some (out1 x d a fun p => w32 (floatFn .log2 ftv p.toNat))
  | .fsin _ d a => some (out1 x d a fun p => w32 (floatFn .sin ftv p.toNat))
  | .fcos _ d a => some (out1 x d a fun p => w32 (floatFn .cos ftv p.toNat))
  | .fscale _ d a _ rnd => some (out2 x B d a tagTwo (laneFscale rnd))
  | .fexpo _ d a => some (out1 x d a laneFexpo)
  | .fmant _ d a => some (out1 x d a laneFmant)
  | .hadd2 _ d a _ md => some (out2 x B d a tagTwo (laneHadd2 md))
  | .hmul2 _ d a _ md => some (out2 x B d a tagTwo (laneHmul2 md))
  | .hfma2 _ d a b c md => some (out3 x d a b c (laneHfma2 md))
  | .hmnmx2 _ d a _ mx bf => some (out2 x B d a tagTwo (laneHmnmx2 mx bf))
  | .fdot2 _ d a b c md => some (out3 x d a b c (laneFdot2 md))
  | .dadd _ d a _ md => some (outPair d.field (tagOf (two x a.field ++ B)) fun k =>
      laneDadd md (x.rd64 a k) (joinWords ((B.headD zeroReg).at k) ((B.getD 1 zeroReg).at k)))
  | .dmul _ d a _ md => some (outPair d.field (tagOf (two x a.field ++ B)) fun k =>
      laneDmul md (x.rd64 a k) (joinWords ((B.headD zeroReg).at k) ((B.getD 1 zeroReg).at k)))
  | .dfma _ d a b c md => some (outPair d.field (tagOf (two x a.field ++ two x b.field ++ two x c.field)) fun k =>
      laneDfma md (x.rd64 a k) (x.rd64 b k) (x.rd64 c k))
  | _ => none

/-- The words that the register instructions of group 0 write: `SREAD`, `TAGQ`, `TINFO`, and `NOP`, which writes none. -/
def controlOuts (s : State) (w : WarpId) (x : Warp) : Instr → Option (List RegOut)
  | .nop _ => some []
  | .tagq _ d a => some [⟨d.field, .uniform, fun _ =>
      match (x.reg a.field).tag with
      | .uniform => 0
      | .affine => 1
      | .general => 2⟩]
  | .tinfo _ d j => some [⟨d.field, .uniform, fun _ =>
      match x.handler with
      | some h => BitVec.ofNat 32 (bytesNat (h.trec.bytes false) (4 * j) 4)
      | none => 0⟩]
  | .sread _ d n =>
    if n = 0 then some [⟨d.field, .affine, fun k => BitVec.ofNat 32 k⟩]
    else
      match s.gridOf? w.team, s.team? w.team with
      | some (_, g), some tm =>
        if srWide n then some (outPair d.field .uniform fun _ => BitVec.ofNat 64 (srVal s w x tm g n))
        else some [⟨d.field, .uniform, fun _ => BitVec.ofNat 32 (srVal s w x tm g n)⟩]
      | _, _ => none
  | _ => none

/-! ### Encodings -/

/-- The opcodes that Table 11-9 assigns, as the first and the last of each group. -/
def assignedRanges : List (Nat × Nat) :=
  [(0x000, 0x01A), (0x040, 0x069), (0x080, 0x092), (0x0C0, 0x0DB), (0x100, 0x10D), (0x140, 0x156), (0x180, 0x188), (0x1C0, 0x1CA)]

/-- A reserved cell of Table 11-9. -/
def reservedOp (op : Nat) : Bool := assignedRanges.all fun r => op < r.1 || r.2 < op

/-- Words that the spec writes out (Tables 11-7, 14-3, 16-2, 17-4, 18-2, 20-3; R260, R287). -/
def specWords : List (DWord × Instr) :=
  [(0x0084FFFFFFFFED00#64, .bra (.pred 2 false) (-19)),
   (0x32FE0040A017FF02#64, .isetp .always 1 (.v 10) (.reg (.v 5)) .lt false),
   (0x477E0A0200C3FF03#64, .cvtn .always (.v 40) (.v 32) (.reg (.v 48)) 3),
   (0x61820340C0040D00#64, .ffma (.pred 1 false) (.v 13) (.v 12) (.v 1) (.v 13) ⟨.rn, false, false, false, false⟩),
   (0x8002030160000028#64, .ld (.pred 1 false) .sc .b32 (.v 12) (.v 22) 0),
   (0x817E06015FFFFF09#64, .ldk .always (.v 24) (.v 21) 1 true),
   (0xA07EFFC060240820#64, .cpy .always .sc .gl .z (.v 6) (.v 9) 8),
   (0xA97EFFC06023FF00#64, .skmrg .always (.v 6) (.v 8) none),
   (0xC07E00820023FF13#64, .mma .always 2 (.v 32) (.v 8) ⟨false, 1, 1, true⟩),
   (0xE2FE030020180B00#64, .skqtl .always (.v 12) (.v 2) (.v 6) (.v 11))]

/-- The fields of an instruction are legal for a warp (checks 2 and 3 of R229): its group is one of the class's, its tile is
granted, its slots are good, each register run lies within v0 to v767, or in handler state within h0 to h31, or is `vz`, and
handler state fits. -/
structure FieldsLegal (slot : Nat → Slot) (x : Warp) (hnd : Bool) (eng : Nat) (i : Instr) : Prop where
  cls : groupOf i ≤ 4 ∨ (groupOf i = 5 ∧ eng = 1) ∨ (groupOf i = 6 ∧ eng = 2) ∨ (groupOf i = 7 ∧ eng = 3)
  tile : ∀ t, tileOf i = some t → t < x.atl
  slots : slotsOk slot i = true
  runs : ∀ r ∈ readRuns slot i ++ writeRuns slot i,
    r.1 + r.2 ≤ 768 ∨ (hnd = true ∧ 960 ≤ r.1 ∧ r.1 + r.2 ≤ 992) ∨ (r.1 = 1023 ∧ r.2 ≤ 2)
  tret : ∀ g b, i = .tret g b → hnd = true
  tinfo : ∀ g d j, i = .tinfo g d j → hnd = true
  exits : ∀ g, i = .exit g → hnd = false
  launch : ∀ g d a, i = .launch g d a → hnd = false

/-- The shape that a tag says a register has (R76). -/
def TagTrue (r : VReg) : Prop :=
  match r.tag with
  | .uniform => ∀ k < 32, r.at k = r.at 0
  | .affine => ∃ b st : Word, ∀ k < 32, r.at k = b + BitVec.ofNat 32 k * st
  | .general => True

/-- Every register of a warp has the shape that its tag says. -/
def TagsTrue (x : Warp) : Prop := ∀ n, TagTrue (x.reg n)

/-- The rational number of an exact number, if it is finite. -/
def exactQ (s : Bool) (n d : Nat) : ℚ := if s then -((n : ℚ) / d) else (n : ℚ) / d
def numQ : Machine.Num → Option ℚ
  | .fin s n d => some (exactQ s n d)
  | _ => none

/-! ### What an instruction leaves -/

/-- The registers, predicates, tiles, counters and allocation of one warp are those of another. -/
def SameData (z y : Warp) : Prop :=
  y.regs = z.regs ∧ y.hregs = z.hregs ∧ y.preds = z.preds ∧ y.pend = z.pend ∧ y.tiles = z.tiles ∧ y.ctr = z.ctr ∧ y.g = z.g

/-- Warp `w` has retired the instruction at position `c` and stands past it, with the registers, predicates, tiles, counters
and allocation of `z`; every other warp, all of memory with its caches, the fabric and every grid, queue, partition and host
register are those of `u`. -/
structure Past (u t : State) (w : WarpId) (x : Warp) (c : Cursor) (z : Warp) : Prop where
  warp : ∃ y, t.warp? w = some y ∧ SameData z y ∧ y.cursor = some c.next ∧ y.fr = x.fr ∧ y.port = x.port ∧
    y.status = x.status ∧ y.window = [] ∧ y.seq = x.seq + 1 ∧ y.lastRetire = u.clock
  others : ∀ v, wkey v ≠ wkey w → t.warp? v = u.warp? v
  rest : t = { u with warps := t.warps, teams := t.teams, ctxs := t.ctxs }

/-- The state after the dispatch of `i` and a release at a scope (R162). -/
def released (s : State) (w : WarpId) (x : Warp) (c : Cursor) (i : Instr) (sc : Scope) : State :=
  ((s.dispatched w x c i).release w sc).2

/-- Nothing in the package waits or is due: no held flag, message, host write, key load, fired operation or launch; no sector of
an L1 has been dirty for 65,536 cycles (R158), every L1 has dropped its clean lines within 2^20 (R167), every slice has evicted a
signature within 2^21 (R167); and no warp asks another package for a word. -/
structure Quiet (s : State) : Prop where
  flags : s.fab.flags = []
  held : s.fab.msgHeld = []
  armed : s.fab.armed.any Armed.due = false
  reduces : s.fab.reduces = []
  inbox : s.fab.inbox = []
  host : s.host.barPend = [] ∧ s.host.keyPend = none
  sectors : ∀ c ∈ s.mem.cores, ∀ e ∈ c.2.l1, ∀ k t, amFind e.since k = some t → s.clock < t + 65536
  lines : ∀ c ∈ s.mem.cores, s.clock < c.2.lastInval + 2 ^ 20
  slices : ∀ g ∈ s.mem.l2sig, s.clock < g.2.lastEvict + 2 ^ 21
  known : ∀ e ∈ s.warps, e.2.fr.all FEntry.known = true
  words : ∀ e ∈ s.warps, ∀ x ∈ (s.warp? (widOf e.1)).toList, (s.readySel (widOf e.1) x).2.fab.nextReq = s.fab.nextReq

/-- Every team, and every context, is as it was. -/
def SameTeams (s t : State) : Prop := t.teams = s.teams ∧ t.ctxs = s.ctxs

/-- One team has changed, to `tm`; the others, and the contexts, are as they were. -/
def TeamNow (s t : State) (k : Nat) (tm : Team) : Prop :=
  t.team? k = some tm ∧ (∀ j, j ≠ k → t.team? j = s.team? j) ∧ t.ctxs = s.ctxs

/-! ### Branches (R55, R239, R240, R372) -/

/-- The lanes that a control instruction acts on: the active ones; in handler state all lanes or none, as the lowest. -/
def branchMask (x : Warp) (c : Cursor) (i : Instr) : Mask :=
  if x.inHandler then
    match lowest c.rmask with
    | some l => if (activeMask x c i).getLsbD l then c.rmask else 0
    | none => 0
  else activeMask x c i

/-- The header that each lane of a mask branches to. -/
def goesTo (x : Warp) (c : Cursor) (m : Mask) : Instr → Option (Nat → Nat)
  | .bra _ off => some fun _ => (((c.pc : Int) + 8 * off.toInt) % 2 ^ 64).toNat
  | .call _ _ off => some fun _ => (((c.pc : Int) + 8 * off.toInt) % 2 ^ 64).toNat
  | .brx _ a => some fun k => (x.rd64 a (if x.inHandler then (lowest m).getD 0 else k)).toNat
  | .callx _ _ a => some fun k => (x.rd64 a (if x.inHandler then (lowest m).getD 0 else k)).toNat
  | .ret _ a => some fun k => (x.rd64 a (if x.inHandler then (lowest m).getD 0 else k)).toNat
  | _ => none

/-- A warp with the link of a call written: the header that follows the clause. -/
def linked (x : Warp) (c : Cursor) (m : Mask) : Instr → Warp
  | .call _ d _ => x.writePair d.field m .uniform .uniform fun _ => BitVec.ofNat 64 c.last
  | .callx _ d _ => x.writePair d.field m .uniform .uniform fun _ => BitVec.ofNat 64 c.last
  | _ => x

/-- The fault or the record position of the instruction at a position, its active mask `m`. -/
def posAt (x : Warp) (c : Cursor) (m : Mask) : Pos :=
  { pc := c.pc, word := c.words.headD 0, mask := m, hdr := false, frontier := x.fr, cursor := some c }

/-! ### Barriers and rings (R245, R51) -/

/-- A barrier after an arrival with a count and a signature, among `live` warps that have not exited. -/
def arrived (b : Bar) (count live : Nat) (g : Sig) : Bar :=
  let exp := if b.arr = 0 then count else b.exp
  if b.arr + 1 = (if exp ≠ 0 then exp else live) then
    { exp := 0, arr := 0, phase := 1 - b.phase, sig := 0, lastSig := b.sig ||| g }
  else { b with exp := exp, arr := b.arr + 1, sig := b.sig ||| g }

/-- The warps of a team that have not exited. -/
def liveWarps (s : State) (t : Nat) : Nat := ((s.warpsOf t).filter fun e => e.2.status != .exited).length

/-- A team with a stage of a ring replaced. -/
def withStage (tm : Team) (n st : Nat) (g : Stage) : Team := { tm with rings := tm.rings.modify n fun r => r.set st g }

/-! ### Returning from a trap (R255, R373) -/

/-- The frontier and the position that `TRET` gives back. -/
def resumed (h : Handler) (skip : Bool) : List FEntry × Option Cursor :=
  if h.trec.hdr then
    (if skip then h.frozen
     else State.mergeEntry h.frozen { addr := h.trec.pc, mask := h.trec.mask, prio := h.trec.insn.toNat / 2 ^ 48 % 256,
                                      passes := 0, rejoin := h.trec.insn.getLsbD 56, known := false }, none)
  else
    (h.frozen, h.fcur.map fun c =>
      if skip then { c with pc := h.trec.pc + 8, live := h.trec.live, rmask := h.trec.live, words := c.words.drop 1 }
      else { c with pc := h.trec.pc, live := h.trec.live, rmask := h.trec.resume })

/-! ### Memory instructions -/

/-- No operation of a warp carries the number of an instruction still to be dispatched. -/
structure Fresh (x : Warp) : Prop where
  window : ∀ e ∈ x.window, e.seq < x.seq
  loads : ∀ l ∈ x.loads, l.id < x.seq
  stores : ∀ o ∈ x.stores, o.id < x.seq
  sketches : ∀ o ∈ x.skOps, o.id < x.seq

/-- The accesses of a lane in a 32-bit space: one, or in lane scratch one for each word, at its place in the core scratch of
the warp (R106). -/
def laneAccs (k : Nat) (sp : Space) (ea n : Nat) : List Acc :=
  match sp with
  | .ln => (List.range (max 1 (n / 4))).map fun j =>
      { lane := k, ea := ea + 4 * j, loc := .sc (128 * ((ea + 4 * j) / 4) + 4 * k + (ea + 4 * j) % 4), len := min n 4 }
  | .cl => [{ lane := k, ea := ea, loc := .cl ea, len := n }]
  | .ch => [{ lane := k, ea := ea, loc := .ch ea, len := n }]
  | _ => [{ lane := k, ea := ea, loc := .sc ea, len := n }]

/-- Registers pending for an operation (R73, R81): `vz` never is. -/
def pending (p : AMap Nat) (l : List Nat) (id : Nat) : AMap Nat :=
  (l.filter fun n => n != 1023).foldl (fun p n => amSet p n id) p

/-- The operation that a load leaves behind: its destinations keep their old lanes, tagged general, until it binds. -/
def loadLeft (x : Warp) (dsts : List Nat) (acq : Option Scope) (accs : List Acc) (m : Mask) : LoadOp :=
  { id := x.seq, dsts := dsts, vals := dsts.map fun n => { tag := .general, words := lanes.map fun k => (x.reg n).at k }
    accs := accs, need := m, bound := 0, retired := true, acq := acq, sig := 0, fallen := false }

/-- LAWF of a warp's context, which its sketch operations keep as they issue (R356). -/
def lawOf (s : State) (w : WarpId) : Bool := (s.ctx (s.ctxOf w.team)).lawf

/-- The operation that lanes of sketch windows leave behind (R145). -/
def windowLeft (lawf : Bool) (x : Warp) (c : Cursor) (i : Instr) (l : List SkLane) : List SkOp :=
  if l.isEmpty then []
  else [{ id := x.seq, pc := c.pc, word := c.words.headD 0, mask := c.rmask, instr := i, lanes := l, dsts := [], vals := [],
          stDst := [], stVal := [], retired := true, units := 0, total := 0, busy := false, paused := [], pausedAt := []
          lawf := lawf }]

/-- Whether the lanes checked have all passed. -/
def allPass (l : List (Nat × LaneRes)) : Bool :=
  l.all fun r => match r.2 with
    | .acc _ => true
    | .sk _ => true
    | _ => false

/-- The lanes that access memory, those at sketch windows apart. -/
def accLanes (l : List (Nat × LaneRes)) : Mask :=
  maskOf fun k => l.any fun r => r.1 == k && match r.2 with
    | .acc _ => true
    | _ => false

/-- The load instructions: space, bytes, destination, address of a lane, acquire scope, and whether a sketch window answers
(R293, R296). -/
def loadForm (x : Warp) : Instr → Option (Space × Nat × Reg × (Nat → Nat) × Option Scope × Bool)
  | .ld _ sp wd d a off => some (sp, widthBytes wd, d, laneEa x sp a off, none, true)
  | .ldacq _ sp wd sc d a off => some (sp, widthBytes wd, d, laneEa x sp a off, some sc, false)
  | _ => none

/-- What an instruction that stores does in each lane. -/
structure StoreForm where
  kind : StKind
  rel : Option Scope
  acq : Option Scope
  space : Space
  bytes : Nat
  ea : Nat → Nat
  /-- the bytes stored, and the operand and the compare value of an atomic -/
  data : Nat → List Byte × Nat × Nat
  dst : List Nat
  window : Bool

/-- The instructions that store (R294, R296 to R298). -/
def storeForm (x : Warp) : Instr → Option StoreForm
  | .st _ sp wd ofl d a off => some ⟨if ofl then .ordered else .plain, none, none, sp, widthBytes wd, laneEa x sp a off,
      fun k => (dataBytes x d (widthBytes wd) k, 0, 0), [], true⟩
  | .strel _ sp wd sc d a off => some ⟨.release, some sc, none, sp, widthBytes wd, laneEa x sp a off,
      fun k => (dataBytes x d (widthBytes wd) k, 0, 0), [], false⟩
  | .atom _ op m d a b => some ⟨.atom op, relOf m, acqOf m, m.space, atomBytes m, atomEa m a x,
      fun k => ([], atomOpnd m b x k, 0), runOf d.field (atomBytes m / 4), false⟩
  | .atomc _ m d a b c => some ⟨.atomc, relOf m, acqOf m, m.space, atomBytes m, atomEa m a x,
      fun k => ([], atomOpnd m b x k, atomOpnd m c x k), runOf d.field (atomBytes m / 4), false⟩
  | .red _ op m a b => some ⟨.red op, relOf m, none, m.space, atomBytes m, atomEa m a x, fun k => ([], atomOpnd m b x k, 0), [],
      false⟩
  | _ => none

/-- The lines that a write of `n` bytes at a place reaches, as R166 names them. -/
def linesOf (fid : Nat) (l : Loc) (n : Nat) : List Nat :=
  match l with
  | .mem pa _ _ => (List.range ((pa + n - 1) / 128 - pa / 128 + 1)).map fun k => lineName fid (pa + 128 * k)
  | .remote f a _ => (List.range ((a + n - 1) / 128 - a / 128 + 1)).map fun k => lineName f (a + 128 * k)
  | _ => []

/-- The lines that the inserts and deletions among lanes of sketches will write: their counters and their descriptors (R151,
R166). -/
def skLines (fid : Nat) (l : List SkLane) : List Nat :=
  (l.filter fun q => q.act == .ins || q.act == .del).flatMap fun q =>
    linesOf fid q.dloc 64 ++ (q.cols.zip (skTouch q.snap q.act q.key)).flatMap fun p => linesOf fid p.1 p.2.2

/-- Signatures with lines joined (R166). -/
def sigsWith (g : Sigs) (lines : List Nat) : Sigs := lines.foldl (fun g line => g.join (sigOf line)) g

/-- The parts of a store over its lanes, in lane order. -/
def partsOf (f : StoreForm) (l : List (Nat × LaneRes)) : List StAcc :=
  l.flatMap fun r => match r.2 with
    | .acc accs => stParts accs (f.data r.1).1 (f.data r.1).2.1 (f.data r.1).2.2
    | _ => []

/-- A warp that has stored: one operation that performs later, one that returns values where the form has a destination, one
at sketch windows, its counters raised and the lines noted in its signatures (R73, R75, R166, R232). -/
def hasStored (s : State) (w : WarpId) (x : Warp) (c : Cursor) (i : Instr) (f : StoreForm) (l : List (Nat × LaneRes)) : Warp :=
  let parts := partsOf f l
  let back := f.dst ≠ [] ∧ accLanes l ≠ 0
  { x.past c s.clock with
    ctr := (countersOf i).foldl (fun k n => k.add n true) x.ctr
    sigs := sigsWith x.sigs ((parts.flatMap fun q => linesOf s.fab.fid q.acc.loc q.acc.len) ++ skLines s.fab.fid (skLanes l))
    stores := x.stores ++ [{ id := x.seq, kind := f.kind, rel := f.rel, acq := f.acq, accs := s.mergeLanes w.team parts,
                             todo := accLanes l, acks := 0, released := false, sig := 0, lost := [] }]
    loads := x.loads ++ (if back then [loadLeft x f.dst f.acq (parts.map StAcc.acc) (accLanes l)] else [])
    pend := if back then pending x.pend f.dst x.seq else x.pend
    skOps := x.skOps ++ windowLeft (lawOf s w) x c i (skLanes l) }

/-- The words of constant windows for lanes, each with its index: none where one cannot be had now. -/
def windowWords (w : WarpId) (win : Nat) (b64 : Bool) : List (Nat × Nat) → State → Option (List (Nat × List Word)) × State
  | [], s => (some [], s)
  | (k, j) :: l, s =>
    match s.windowWord w win j with
    | (.inr _, s) => (none, s)
    | (.inl lo, s) =>
      if b64 then
        match s.windowWord w win ((j + 1) % 2 ^ 17) with
        | (.inr _, s) => (none, s)
        | (.inl hi, s) =>
          match windowWords w win b64 l s with
          | (some r, s) => (some ((k, [lo, hi]) :: r), s)
          | (none, s) => (none, s)
      else
        match windowWords w win b64 l s with
        | (some r, s) => (some ((k, [lo]) :: r), s)
        | (none, s) => (none, s)

/-- The word of a lane among them. -/
def wordAt (l : List (Nat × List Word)) (j k : Nat) : Word := (((l.find? fun r => r.1 == k).map (·.2)).getD []).getD j 0

/-- Whether a line lies in some of the physical pieces of a range, under the piece's key (R300). -/
def inRange (ps : List (Nat × Nat × Nat)) (line key : Nat) : Prop :=
  ∃ p ∈ ps, p.2.2 = key ∧ line * 128 < p.1 + p.2.1 ∧ p.1 < line * 128 + 128

-- BEGIN F
/-! ### Engine operations (R303 to R313) -/

/-- An engine operation as its instruction leaves it: nothing read and nothing written yet. -/
def opLeft (x : Warp) (c : Cursor) (m : Mask) (kind : CopyKind) (ds ss : Space) (rows : List CopyRow) (ntf : Option Nat)
    (fid : Nat) : CopyOp :=
  { id := x.seq, pc := c.pc, word := c.words.headD 0, mask := m, kind := kind, ds := ds, ss := ss, rows := rows, ntf := ntf,
    fid := fid, stage := .issued, acks := 0, paused := [], lost := [] }

/-- A warp whose open batch is sealed under the next serial (R305); an empty one is not. -/
def sealedBatch (y : Warp) : Warp :=
  if y.openBatch = [] then y
  else { y with openBatch := [], serial := (y.serial + 1) % 2 ^ 32, ctr := { y.ctr with cb := y.ctr.cb + 1 },
                batches := y.batches ++ [{ serial := (y.serial + 1) % 2 ^ 32, ops := y.openBatch }] }

/-- A warp with an operation in its open batch, which is sealed first where it holds 255 (R305). -/
def joinedBatch (y : Warp) (o : CopyOp) : Warp :=
  let z := if 255 ≤ y.openBatch.length then sealedBatch y else y
  { z with copies := z.copies ++ [o], openBatch := z.openBatch ++ [o.id] }

/-- The base address of a side in a lane. -/
def sideOf (x : Warp) (sp : Space) (r : Reg) (k : Nat) : Nat :=
  if sp = .gl then (x.rd64n r.field k).toNat else (x.rd r k).toNat

/-- The destination of a lane: its base plus 16 times the signed C field, in the width of the space. -/
def destOf (x : Warp) (sp : Space) (r : Reg) (off : BitVec 10) (k : Nat) : Nat :=
  if sp = .gl then (BitVec.ofInt 64 ((x.rd64n r.field k).toNat + 16 * off.toInt)).toNat
  else (BitVec.ofInt 32 ((x.rd r k).toNat + 16 * off.toInt)).toNat

/-- What the copy instructions ask for (R304), everything read in the lowest active lane but for the indices of `CPYX` and
`CPYO`, one row for each active lane in rank order. -/
def copyForm (x : Warp) (m : Mask) : Instr → Option CopyPlan :=
  let l := (lowest m).getD 0
  let byRank := (List.range 32).filter fun k => m.getLsbD k
  fun i => match i with
  | .cpy _ ds ss d a b off =>
    let n := (x.rd b l).toNat
    some { kind := .copy, ds := ds, ss := ss, dst := destOf x ds d off l, src := sideOf x ss a l, sizes := [n], row := 0, ntf := none
           rows := if n = 0 then [] else [⟨sideOf x ss a l, destOf x ds d off l, n⟩] }
  | .cpyt _ ds ss d a b off =>
    let n := (x.rd b l).toNat % 65536
    let rows := (x.rd b l).toNat / 65536
    let sst := nextWord x b 1 l
    let dst := nextWord x b 2 l
    some { kind := .copy, ds := ds, ss := ss, dst := destOf x ds d off l, src := sideOf x ss a l, sizes := [n, sst, dst], row := 0
           ntf := none
           rows := if n = 0 ∨ sst = 0 ∨ dst = 0 then [] else (List.range rows).map fun k =>
             ⟨sideOf x ss a l + k * sst, destOf x ds d off l + k * dst, n⟩ }
  | .cpyx _ ds ss d a b off =>
    let n := nextWord x b 1 l % 8192
    some { kind := .copy, ds := ds, ss := ss, dst := destOf x ds d off l, src := sideOf x ss a l, sizes := [n], row := n, ntf := none
           rows := if n = 0 then [] else byRank.mapIdx fun q k =>
             ⟨wrapAddr ss (sideOf x ss a l + (x.rd b k).toNat * n), destOf x ds d off l + q * n, n⟩ }
  | .cpyo _ ds ss d a b off =>
    let n := nextWord x b 1 l % 8192
    some { kind := .copy, ds := ds, ss := ss, dst := destOf x ds d off l, src := sideOf x ss a l, sizes := [n], row := n, ntf := none
           rows := if n = 0 then [] else byRank.mapIdx fun q k =>
             ⟨sideOf x ss a l + q * n, wrapAddr ds (destOf x ds d off l + (x.rd b k).toNat * n), n⟩ }
  | .put _ ss ntf d a b off =>
    let n := (x.rd b l).toNat
    some { kind := .put, ds := .gl, ss := ss, dst := destOf x .gl d off l, src := sideOf x ss a l, sizes := [n], row := 0
           ntf := if ntf then some (nextWord x b 1 l % 4096) else none
           rows := cutRows (sideOf x ss a l) (destOf x .gl d off l) n true }
  | .get _ ds ntf d a b off =>
    let n := (x.rd b l).toNat
    some { kind := .get, ds := ds, ss := .gl, dst := destOf x ds d off l, src := sideOf x .gl a l, sizes := [n], row := 0
           ntf := if ntf then some (nextWord x b 1 l % 4096) else none
           rows := cutRows (sideOf x .gl a l) (destOf x ds d off l) n false }
  | _ => none

/-- The state with the scoreboard entry of a copy into the team's virtual scratch (R170). -/
def boarded (u : State) (w : WarpId) (x : Warp) (p : CopyPlan) : State :=
  if p.ds = .sc ∨ p.ds = .cl then
    u.modCore x.core fun k => { k with scoreboard := k.scoreboard ++
      [{ team := w.team, sp := p.ds, lo := u.scrIndex w.team (p.ds == .cl) (dstHull p).1
         hi := u.scrIndex w.team (p.ds == .cl) (dstHull p).2, warp := w.widx, id := x.seq }] }
  else u

/-- An instruction of a warp that takes a fault, its counts not kept, before any lane has acted. -/
def trapsWith (s : State) (w : WarpId) (x : Warp) (c : Cursor) (m : Mask) (tr : Trap) : State :=
  ((s.setWarp w { x with seq := x.seq + 1 }).takeTrap w countersOf (posAt x c m) tr).endClause w
-- END F

-- BEGIN G
/-! ### Tiles (R315 to R328) -/

/-- What a matrix instruction takes at issue: its tile, the registers it reads of A and C, the registers it will write, and the
scratch bytes it reads, if any. -/
structure TileForm where
  tile : Nat
  a : List Nat
  c : List Nat
  dst : List Nat
  range : Option (Nat × Nat)

/-- Those of the matrix instructions that name a tile, `MST` apart (R317, R318, R320, R324): `l` is the lane that gives the
address. -/
def tileForm (slot : Nat → Slot) (x : Warp) (l : Nat) : Instr → Option TileForm
  | .mma _ t a b md => some ⟨t, regRun a (mmaRun (slot md.sa) false), [], [],
      some ((x.rd b l).toNat, productHull (slot md.sa) (slot md.sb) false)⟩
  | .mmac _ t a b md => some ⟨t, regRun a (mmaRun (slot md.sa) false), [], [],
      some ((x.rd b l).toNat, productHull (slot md.sa) (slot md.sb) false)⟩
  | .mmas _ t a b r md => some ⟨t, regRun a (mmaRun (slot md.sa) true), regRun r (mmaMeta (slot md.sa)), [],
      some ((x.rd b l).toNat, productHull (slot md.sa) (slot md.sb) true)⟩
  | .mzero _ t => some ⟨t, [], [], [], none⟩
  | .mrd _ d t _ => some ⟨t, [], regRun d 16, regRun d 16, none⟩
  | .mwr _ t a _ => some ⟨t, regRun a 16, [], [], none⟩
  | .mld _ t a => some ⟨t, [], [], [], some ((x.rd a l).toNat, 32 * 256)⟩
  | _ => none

/-- The operation that a matrix instruction leaves for the engine, the registers it reads as they stand. -/
def tileLeft (x : Warp) (m : Mask) (i : Instr) (tile : Nat) (a c : List Nat) (addr len : Nat) (places : List (Loc × Nat)) :
    TileOp :=
  { id := x.seq, instr := i, mask := m, tile := tile, aRegs := a.map fun n => (x.reg n).words,
    cRegs := c.map fun n => (x.reg n).words, addr := addr, len := len, places := places }

/-- A warp that has issued a matrix instruction: its operation queued, and `tl` one higher until it is done (R326). -/
def hasTiled (y : Warp) (o : TileOp) : Warp := { y with tileOps := y.tileOps ++ [o], ctr := { y.ctr with tl := y.ctr.tl + 1 } }

/-- A warp with an operation on its tiles done: `tl` falls. -/
def tileLess (y : Warp) (o : TileOp) : Warp :=
  { y with tileOps := y.tileOps.filter fun (q : TileOp) => q.id != o.id, ctr := { y.ctr with tl := y.ctr.tl - 1 } }

/-- Bytes of one element row of an `MST`: 64 words, or 64 elements of the format of its slot (Table 16-4). -/
def storedRow (slot : Nat → Slot) (x : Warp) (tile : Nat) (cvt : Bool) (n i : Nat) : List Byte :=
  if cvt then
    leBytes (8 * (((elemOf (slot n).efmt).map Elem.bits).getD 0))
      (packElems (((elemOf (slot n).efmt).map Elem.bits).getD 0)
        ((List.range 64).map fun j => roundFmt (f32 (tileAt x tile i j)) (slot n) (64 * i + j)))
  else (List.range 64).flatMap fun j => leBytes 4 (tileAt x tile i j).toNat

/-- Bytes from one row of an `MST` to the next (Table 16-4). -/
def storedLen (slot : Nat → Slot) (cvt : Bool) (n : Nat) : Nat :=
  if cvt then 8 * (((elemOf (slot n).efmt).map Elem.bits).getD 0) else 256

/-- The word that an operation on a tile gives row i, column j (R322, R324): what it had, or what the operation makes of it from
the registers read at issue and the scratch bytes `bs`. -/
def tileWord (slot : Nat → Slot) (x : Warp) (o : TileOp) (bs : List Byte) (i j : Nat) : Word :=
  let old := tileAt x o.tile i j
  let made := fun (sparse : Bool) (md : MmaMod) =>
    let k := depthOf (slot md.sa) sparse
    let rb := rowBytes (slot md.sb)
    mmaAccumulate (slot md.sa) (slot md.sb) sparse (laneString o.aRegs i) (laneString o.cRegs i)
      ((List.range k).map fun r => leNat ((bs.drop (r * rb)).take rb)) (leNat (bs.drop (k * rb))) j (if md.zero then 0 else old)
  match o.instr with
  | .mma _ _ _ _ md => made false md
  | .mmac _ _ _ _ md => made false md
  | .mmas _ _ _ _ _ md => made true md
  | .mld _ _ _ => BitVec.ofNat 32 (leNat ((bs.drop (256 * i + 4 * j)).take 4))
  | .mzero _ _ => 0
  | .mwr _ _ _ q => if j / 16 = q then (o.aRegs.getD (j % 16) []).getD i 0 else old
  | _ => old

/-- Whether an operation writes its tile. -/
def writesTile : Instr → Bool
  | .mma _ _ _ _ _ => true
  | .mmac _ _ _ _ _ => true
  | .mmas _ _ _ _ _ _ => true
  | .mld _ _ _ => true
  | .mzero _ _ => true
  | .mwr _ _ _ _ => true
  | _ => false

/-- Whether an operation reads scratch (R318, R324). -/
def readsScratch : Instr → Bool
  | .mma _ _ _ _ _ => true
  | .mmac _ _ _ _ _ => true
  | .mmas _ _ _ _ _ _ => true
  | .mld _ _ _ => true
  | _ => false

/-- The scratch bytes of an operation, if they can be had now, and the state after they have been read. -/
def tileGot (s : State) (w : WarpId) (x : Warp) (o : TileOp) : Option (List Byte) × State :=
  if readsScratch o.instr then s.tileBytes w x o else (some [], s)
-- END G

-- BEGIN H
/-! ### Sketches (R129 to R149, R311, R331 to R341) -/

/-- What a sketch instruction does in each lane. -/
structure SkForm where
  dst : List Nat
  st : List Nat
  handle : Nat → Nat
  act : SkDo
  key : Nat → Nat
  wt : Nat → Nat
  weighted : Bool

/-- A status word's register: none where the field holds 1023 (R331). -/
def statusTo (r : Reg) : List Nat := if r.field = 1023 then [] else [r.field]

/-- The sketch instructions that act lane by lane (R334, R336, R339; Table 18-4). -/
def skForm (x : Warp) : Instr → Option SkForm
  | .skins _ d a b c wt => some ⟨[], statusTo d, fun k => (x.rd64 a k).toNat, .ins, fun k => (x.rd64 b k).toNat,
      fun k => if wt then (x.rd c k).toNat else 1, wt⟩
  | .skdel _ d a b c wt => some ⟨[], statusTo d, fun k => (x.rd64 a k).toNat, .del, fun k => (x.rd64 b k).toNat,
      fun k => if wt then (x.rd c k).toNat else 1, wt⟩
  | .skqry _ d a b c => some ⟨[d.field], statusTo c, fun k => (x.rd64 a k).toNat, .qry, fun k => (x.rd64 b k).toNat,
      fun _ => 1, false⟩
  | .skcard _ d a c => some ⟨runOf d.field 2, statusTo c, fun k => (x.rd64 a k).toNat, .card, fun _ => 0, fun _ => 1, false⟩
  | .skrank _ d a b c => some ⟨runOf d.field 2, statusTo c, fun k => (x.rd64 a k).toNat, .rank, fun k => (x.rd b k).toNat,
      fun _ => 1, false⟩
  | .skqtl _ d a b c => some ⟨[d.field], statusTo c, fun k => (x.rd64 a k).toNat, .qtl, fun k => min (x.rd b k).toNat 1024,
      fun _ => 1, false⟩
  | .skstat _ d a j => some ⟨runOf d.field 2, [], fun k => (x.rd64 a k).toNat, .stat j, fun _ => 0, fun _ => 1, false⟩
  | _ => none

/-- The operation a sketch instruction leaves behind: its registers keep their old lanes, tagged general, until it is done. -/
def skLeft (lawf : Bool) (x : Warp) (c : Cursor) (i : Instr) (f : SkForm) (l : List SkLane) : SkOp :=
  { id := x.seq, pc := c.pc, word := c.words.headD 0, mask := c.rmask, instr := i, lanes := l,
    dsts := f.dst, vals := f.dst.map fun n => { x.reg n with tag := .general },
    stDst := f.st, stVal := f.st.map fun n => { x.reg n with tag := .general },
    retired := true, units := 0, total := 0, busy := false, paused := [], pausedAt := [], lawf := lawf }

/-- A warp that has issued a sketch operation: queued, `sk` one higher until it is done (R332), and the lines that it will write
in its signatures (R151). -/
def hasSketched (fid : Nat) (y : Warp) (o : SkOp) : Warp :=
  { y with skOps := y.skOps ++ [o], ctr := { y.ctr with sk := y.ctr.sk + 1 }, sigs := sigsWith y.sigs (skLines fid o.lanes) }

/-- The operation of a change of a region as a whole, at issue. -/
def changeLeft (x : Warp) (c : Cursor) (i : Instr) (m : Mask) (lanes : List SkLane) (total : Nat) (busy : Bool) : SkOp :=
  { id := x.seq, pc := c.pc, word := c.words.headD 0, mask := m, instr := i, lanes := lanes, dsts := [], vals := [],
    stDst := [], stVal := [], retired := true, units := 0, total := total, busy := busy, paused := [] }

/-- The hash of a key of n words (R133, R337). -/
def hashVal (x : Warp) (a b : Pair) (n k : Nat) : DWord :=
  BitVec.ofNat 64 (qh64 n ((List.range n).foldl (fun h j =>
    qh64 (x.rd64n (if a.field = 1023 then 1023 else a.field + 2 * j) k).toNat h) (x.rd64 b k).toNat))

/-- A lane of a sketch operation that has passed its checks. -/
def lanePassed (k h pa key cls : Nat) (snap : List Byte) (act : SkDo) (v wt steps : Nat) (cols : List Loc) : SkLane :=
  { lane := k, desc := h, dloc := .mem pa key cls, dcls := cls, snap := snap, key := v, wt := wt, act := act, steps := steps,
    done := 0, reads := [], sat := false, und := false, low := [], cols := cols }

/-- A warp with a sketch operation done: `sk` falls. -/
def skLess (y : Warp) (id : Nat) : Warp :=
  { y with skOps := y.skOps.filter fun (o : SkOp) => o.id != id, ctr := { y.ctr with sk := y.ctr.sk - 1 } }
-- END H

-- BEGIN I
/-! ### The window, and memory as it performs -/

/-- The window of a warp with the entry of a number holding its result, `left` being the lanes that have yet to complete. -/
def withResult (x : Warp) (k : Nat) (r : WResult) (left : Mask) : Warp :=
  { x with window := x.window.map fun (f : WEntry) => if f.seq = k then { f with result := r, left := left } else f }

/-- A warp with register and predicate results written, in order. -/
def written (x : Warp) (rs : List (Nat × VReg)) (ps : List (Nat × Mask)) : Warp :=
  let y := rs.foldl (fun v r => v.setReg r.1 r.2) x
  { y with preds := ps.foldl (fun m p => amPut 0 m p.1 p.2) y.preds }

/-- A warp whose oldest entry has left the window (R70, R71). -/
def popped (x : Warp) (now : Nat) : Warp :=
  { x with window := x.window.drop 1, lastRetire := now, stage := [], refused := [], lostWords := [] }

/-- The ready warps of a core. -/
def readyOn (s : State) (core : Nat) : List (WarpId × Warp) := (s.warpsOn core).filter fun e => s.isReady e.1 e.2

/-- A load with the value of a lane bound. -/
def boundLane (l : LoadOp) (i : Nat) (bs : List Byte) : LoadOp :=
  { l with
    bound := l.bound ||| laneBit i
    vals := (l.vals.zip ((List.range l.dsts.length).map fun j => BitVec.ofNat 32 (leNat ((bs.drop (4 * j)).take 4)))).map
      fun p => { p.1 with words := p.1.words.set i p.2 } }

/-- The loads of a warp with the one of a number changed. -/
def withLoad (x : Warp) (id : Nat) (f : LoadOp → LoadOp) : Warp :=
  { x with loads := x.loads.map fun (k : LoadOp) => if k.id = id then f k else k }

/-- The counters once a load has its data in every lane: `ld` falls once (R73). -/
def ldFallen (l : LoadOp) (c : Counters) : Counters := if l.fallen then c else { c with ld := c.ld - 1 }

/-- A warp with a load done: its destinations, where they still wait for it, take the values, and `ld` falls (R73, R81). -/
def loadDone (x : Warp) (l : LoadOp) : Warp :=
  let y := (l.dsts.zip l.vals).foldl (fun (v : Warp) r => if amFind v.pend r.1 = some l.id then v.setReg r.1 r.2 else v) x
  { y with loads := x.loads.filter fun (k : LoadOp) => k.id != l.id, ctr := ldFallen l x.ctr }

/-- A load as it retires: in the lanes that it does not load, what its destinations hold then (R72). -/
def loadRetired (y : Warp) (l : LoadOp) : LoadOp :=
  { l with
    retired := true
    vals := (l.dsts.zip l.vals).map fun (r : Nat × VReg) =>
      { r.2 with words := lanes.map fun i => if l.need.getLsbD i then r.2.at i else (y.reg r.1).at i } }

/-- A warp with lanes of a store performed, their acknowledgement on its way. -/
def storedLanes (x : Warp) (id : Nat) (m : Mask) (acks : Nat) : Warp :=
  { x with stores := x.stores.map fun (k : StoreOp) =>
      if k.id = id then { k with todo := k.todo &&& ~~~m, acks := k.acks + acks } else k }

/-- A clear path for an access of a warp: every older load has its data, every older store has performed. -/
def ClearBefore (x : Warp) (id : Nat) : Prop :=
  (∀ k ∈ x.loads, k.id < id → State.loadBound k = true) ∧ (∀ o ∈ x.stores, o.id < id → o.todo = 0)
-- END I

-- BEGIN K
/-! ### Engine operations, queues and grids -/

/-- Whether a copy operation may read its source (R303, R188). -/
def MayRead (x : Warp) (o : CopyOp) : Prop :=
  o.stage = .issued ∧ o.paused = [] ∧ (∀ e ∈ x.window, e.seq ≠ o.id) ∧ (∀ l ∈ x.loads, l.id < o.id → l.acq = none)

/-- Nothing in the package waits for a device-ring slot. -/
def QuietRings (s : State) : Prop :=
  (∀ a ∈ s.fab.armed, a.due = false) ∧ s.fab.reduces = [] ∧ ∀ p ∈ s.fab.inbox, p.kind ≠ .launch

/-- The grid that a record becomes (R36 to R38, R88). -/
def gridOf (r : DevRec) (q part : Nat) : Grid :=
  { Grid.start r.ctx q part r.arrival r.handle r.depth r.parent r.recAddr r.record with
    launcher := r.launcher, launchKey := r.launchKey, isHost := r.isHost, cls := if r.prio7 then 7 else bytesNat r.record 5 1 % 8 }

/-- The record taken next from a queue: of the device's and the host's oldest, the one that arrived first (R88). -/
def nextRecord (q : Queue) : Option (DevRec × Bool) :=
  match q.dev, q.hostCopied with
  | [], [] => none
  | d :: _, [] => some (d, true)
  | [], h :: _ => some (h, false)
  | d :: _, h :: _ => some (if d.arrival < h.arrival then (d, true) else (h, false))

/-- A queue with its next record taken. -/
def recordTaken (q : Queue) (dev : Bool) : Queue :=
  if dev then { q with dev := q.dev.drop 1 } else { q with hostCopied := q.hostCopied.drop 1 }
-- END K

-- BEGIN L
/-! ### What arrives from the fabric (R174 to R204, R415 to R421) -/

/-- The packet rows: the packet, the kind its row takes, and what an accepted one does. -/
def packetForm : Instr → Option (Packet × PktKind × (State → State))
  | .readRequest p => some (p, .readReq, fun s => s.serveRead p)
  | .write p => some (p, .write, fun s => s.serveWrite p)
  | .atomicOrRed p => some (p, .atomic, fun s => s.serveAtomic p)
  | .readOrAtomicResponse p => some (p, .response, fun s => s.takeResponse p)
  | .acknowledgement p => some (p, .ack, fun s => s.takeAck p)
  | .orderedFlagWrite p => some (p, .orderedFlag, fun s => s.takeFlag p)
  | .streamClose p => some (p, .streamClose, fun s => s.takeClose p)
  | .message p => some (p, .message, fun s => s.takeMessage p)
  | .multicastDelivery p => some (p, .multicast, fun s => s.takeMulticast p)
  | .collectiveChunk p => some (p, .chunk, fun s => s.takeChunk p)
  | .negativeAcknowledgement p => some (p, .nack, fun s => s.takeNack p)
  | .remoteLaunchDelivery p => some (p, .launch, fun s => s.takeLaunch p)
  | .retirementReport p => some (p, .report, fun s => s.takeReport p)
  | .retirementIncrement p => some (p, .increment, fun s => s.trigAdd p.tag p.opnd none)
  | _ => none

/-- An answer to a packet, with nothing in it yet. -/
def answer (s : State) (p : Packet) (kind : PktKind) : Packet := { s.packetTo kind p.sfid with req := p.req }

/-- The host registers after a write of TRQCTL, but for the request it may make (Table 22-2). -/
def trqKept (w : DWord) (h : HostRegs) : HostRegs :=
  { h with trqOp := w.toNat / 2 ^ 60 % 4, trqCount := w.toNat / 2 ^ 32 % 2 ^ 16, trqTree := w.toNat % 2 ^ 16 }

/-- A landing buffer takes a multicast packet: it is of the packet's context and identity, still open unless bytes of the same
delivery landed in it before, and the whole chunk fits (R194, R195). -/
def mcastLands (p : Packet) (l : Landing) : Prop := l.ctx = p.ctx ∧ l.ident = p.tag ∧
  (l.closed = false ∨ State.partKnown l.begun p = true) ∧ p.addr - p.pos + p.len ≤ l.len

/-- The landing buffers of a package with bytes of a delivery landed in one of them (R194, R195). -/
def mcastLanded (l : Landing) (p : Packet) (ls : List Landing) : List Landing :=
  ls.map fun (d : Landing) => if d.ctx = l.ctx && d.ident = l.ident then
    { d with begun := State.addParts d.begun p.opnd p.sfid p.train p.data.length p.len } else d

/-- No ordered stream and no flag is known. -/
def NoStreams (s : State) : Prop := s.fab.streams = [] ∧ s.fab.flags = []

/-- A request as its answer leaves the package: it is gone, its path pin is one lower, and, where its packet has left, so is its
warp's acknowledgement counter (R180, R183). -/
def answered (s : State) (r : Req) : State :=
  let s := s.setFab { s.fab with reqs := s.fab.reqs.filter fun (q : Req) => !(q.id == r.id && q.fid == r.fid) }
  let s := match r.pin with
    | none => s
    | some line => s.modCore r.core fun c =>
      match amFind c.pins line with
      | none => c
      | some q => { c with pins := if q.count ≤ 1 then amErase c.pins line else amSet c.pins line { q with count := q.count - 1 } }
  match State.ownerWarp r.owner with
  | some w => if State.countedWrite r.kind && r.out then
      s.modWarp w fun x => { x with fpend := x.fpend.mapIdx fun g n => if g = r.link / 4 then n - 1 else n } else s
  | none => s
-- END L

-- BEGIN M
/-! ### Contexts, saves and halts (R94 to R100, R356, R357, R369, R371, R375 to R379, R404 to R411) -/

/-- The team holds what a team holds on its way out by force: SAVING, forced, its countdown at zero (R96, R376). -/
def ForcedOut (tm : Team) : Prop := tm.status = .saving ∧ tm.forced = true ∧ tm.deadline = none ∧ tm.tdl = 0

/-- A warp with nothing in flight at its window, outside handler state. -/
def AtRest (x : Warp) : Prop := x.window = [] ∧ x.handler = none

/-- A warp at rest that a halt leaves with nothing to dispatch: its core's window has room, so that it gives up its port, and one
that holds a record has given it up (R67, R375). -/
def Idle (s : State) (x : Warp) : Prop := AtRest x ∧ s.windowFull x = false ∧ (x.halt ≠ none → x.port = none)

/-- The halt record of a warp at rest (R376): one it holds already, or one that says where it stands; a field that neither fills
reads zero (R370). -/
def haltRecord (cause : Nat) (w : WarpId) (x : Warp) : TrapRec :=
  let pc := (x.cursor.map Cursor.pc).getD (((selectEntry x.fr).map FEntry.addr).getD 0)
  let resume := (x.cursor.map Cursor.rmask).getD (((selectEntry x.fr).map FEntry.mask).getD 0)
  match x.halt with
  | some r => if x.haltStop = true ∨ (r.code = 0x40 ∧ r.skid ≠ 0) then { r with pc := pc, resume := resume } else r
  | none => { TrapRec.zero with
      code := 0x42, halt := true, widx := w.widx, pcore := x.core, aux := if cause = 0x60 then 0x60 else 0
      pc := pc, resume := resume }

/-- Whether a warp's watchdog counts (R378). -/
def Watched (x : Warp) (tm : Team) : Prop :=
  (x.status = .running ∨ (x.status = .handler ∧ State.waitsBank x = false)) ∧ x.park = none ∧ x.halt = none ∧
    (tm.status = .placed ∨ tm.status = .yielding) ∧ (x.cursor ≠ none ∨ x.fr ≠ [] ∨ x.window ≠ [])

/-- The page service of both answers (R405, R406): the partition, the context, and whether it refuses. -/
def serviceForm : Instr → Option (Nat × Nat × Bool)
  | .pageServiceAnswer p c => some (p, c, false)
  | .pageServiceRefuse p c => some (p, c, true)
  | _ => none
-- END M

-- BEGIN N
/-! ### The host (R350 to R366, R422, R423) -/

/-- Whether a function is ready. -/
def readyBit (r : Ready) : DevFn → Bool
  | .compute => r.compute
  | .hbm => r.hbm
  | .fabric => r.fabric
  | .snapshot => r.snapshot
  | .keys => r.keys
  | .energy => r.energy

/-- The rows that install a key, with the key (R359). -/
def keyForm (s : State) : Instr → Option Nat
  | .keyLoad => some s.host.kdata
  | .keyZero => some 0
  | _ => none

/-- Offsets of the aperture that are read-only or reserved: a write of one does nothing (R355). -/
def readOnly : List Nat :=
  [0x18, 0x40, 0x10018, 0x107F8, 0x20018, 0x3FFF8, 0x40048, 0x40060, 0x60028, 0x60030, 0x60040, 0x70010, 0x71008, 0x71018, 0x71020,
   0x80010, 0x80020, 0x80028, 0x80808, 0x80810, 0x80818, 0x80820]

/-- The fields of SNCTL beside ARM, as a write leaves them (Table 22-8). -/
def snapFields (x : Snap) (v : DWord) : Snap :=
  { x with
    tree := v.toNat / 2 ^ 48 % 2 ^ 16
    ctx := v.toNat / 2 ^ 36 % 2 ^ 12
    key := v.toNat / 2 ^ 24 % 2 ^ 12
    trg := v.toNat / 2 ^ 12 % 2 ^ 12
    trgen := v.getLsbD 11 }

/-- The state with the snapshot engine of a partition changed. -/
def withSnap (s : State) (p : Nat) (x : Snap) : State := s.setPart p { s.part p with snap := x }
-- END N

end Sys2Proof.Claims
end

