-- ==== Sys2Proof/WellFormed.lean ====
section
/-! DEFINITION. Well-formed instructions: every operand at a value its encoding admits (Table 11-4, R230, R390),
and every operand of a device event within the device it names (chapters 01, 06, 22). -/

namespace Sys2Proof

/-- A guard names p0 to p47 (R26). -/
def Guard.wf : Guard → Bool
  | .always => true
  | .pred n _ => n < 48

/-- A vector register names v0 to v767 or h0 to h31 (Table 11-4). -/
def Reg.wf : Reg → Bool
  | .v n => n < 768
  | .h n => n < 32
  | .z => true

/-- A pair names an even register (Table 11-4). -/
def Pair.wf : Pair → Bool
  | .v n => n < 768 && n % 2 == 0
  | .h n => n < 32 && n % 2 == 0
  | .z => true

/-- A register field that names a pair (R390). -/
def Reg.wfEven (r : Reg) : Bool :=
  r.wf && (match r with | .v n => n % 2 == 0 | .h n => n % 2 == 0 | .z => true)

/-- A register field that names a quad (R390). -/
def Reg.wfQuad (r : Reg) : Bool :=
  r.wf && (match r with | .v n => n % 4 == 0 | .h n => n % 4 == 0 | .z => false)

/-- A register or the low register of a pair. -/
def Reg.wfSel (pair : Bool) (r : Reg) : Bool := if pair then r.wfEven else r.wf

/-- A run of `n` registers (R390). -/
def Reg.wfRun (n : Nat) : Reg → Bool
  | .v k => k + n ≤ 768
  | .h k => k + n ≤ 32
  | .z => n ≤ 2

/-- A run of `n` registers from the low register of a pair (R390). -/
def Pair.wfRun (n : Nat) : Pair → Bool
  | .v k => k + n ≤ 768
  | .h k => k + n ≤ 32
  | .z => n ≤ 2

/-- Operand B of the ALU form; `imm` says whether kind 10 is allowed (R230, R266). -/
def SrcB.wf (imm : Bool) : SrcB → Bool
  | .reg r => r.wf
  | .win w j => w < 8 && j < 131072
  | .imm _ => imm

/-- Operand B of a 64-bit ALU instruction. -/
def SrcB64.wf (imm : Bool) : SrcB64 → Bool
  | .pair p => p.wf
  | .win w j => w < 8 && j < 131072
  | .imm _ => imm

/-- A scope with a code in the instruction's field: `.w` has none outside `FENCE`. -/
def Scope.wf : Scope → Bool
  | .w => false
  | _ => true

/-- The data register of an access of a width. -/
def Reg.wfData (w : Width) (r : Reg) : Bool :=
  match w with
  | .b64 => r.wfEven
  | .b128 => r.wfQuad
  | _ => r.wf

/-- The base register of an access in a space. -/
def Reg.wfBase (sp : Space) (r : Reg) : Bool := r.wfSel (sp == .gl)

/-- Modifiers of an atomic (Table 14-2). -/
def AtomMod.wf (m : AtomMod) : Bool :=
  m.space != .ln && m.scope.wf && !(m.ord == .relaxed && m.scope != .t)

/-- Modifiers of a matrix product. -/
def MmaMod.wf (m : MmaMod) : Bool := m.sa < 8 && m.sb < 8

/-- A copy-form side. -/
def Space.wfCopy (sp : Space) : Bool := sp != .ln

/-- Operand B of an atomic: unused under `.inc`. -/
def Reg.wfAtomB (op : AtomOp) (b64 : Bool) (r : Reg) : Bool := if op == .inc then r == .z else r.wfSel b64

/-- A warp index of a team (R33). -/
def WarpId.wf (w : WarpId) : Bool := w.widx < 64

/-- Header fields of a packet within their widths (Table 9-1), the payload within two flits (R179). A kind that the table does
not name has no header of that form, and its address is a virtual one. -/
def Packet.wf (p : Packet) : Bool :=
  p.dfid < 8192 && p.sfid < 8192 && p.dinc < 256 && p.sinc < 256 && p.link < 16 && p.spine < 64 && p.score < 512 && p.swarp < 16 &&
  p.serial < 2 ^ 16 && p.ofcnt < 2 ^ 24 && p.tag < 2 ^ 32 && p.key < 4096 && p.ctx < 4096 &&
  match p.kind.code with
  | none => decide (p.addr < 2 ^ 57)
  | some c => decide (c < 64 ∧ p.addr < 2 ^ 48 ∧ p.data.length ≤ 480)

/-- Whether an instruction is well formed. -/
def Instr.wf : Instr → Bool
  | .nop g | .bra g _ | .exit g | .yield g | .mrel g => g.wf
  | .brx g a | .ret g a => g.wf && a.wf
  | .call g d _ => g.wf && d.wf
  | .callx g d a => g.wf && d.wf && a.wf
  | .wait g _ n => g.wf && n < 32
  | .bara g d c b => g.wf && d.wf && c.wf && b < 16
  | .barw g a b => g.wf && a.wf && b < 16
  | .bars g c b => g.wf && c.wf && b < 16
  | .rput g n sg => g.wf && n < 8 && sg < 16
  | .rget g n sg _ => g.wf && n < 8 && sg < 16
  | .rrel g n sg => g.wf && n < 8 && sg < 16
  | .sread g d sr => g.wf && srAssigned sr && d.wfSel (srWide sr)
  | .swrite g sr b => g.wf && srWritable sr && b.wfSel (srWide sr)
  | .reggrow g d n _ => g.wf && d.wf && 1 ≤ n && n ≤ 24
  | .regshrink g n => g.wf && 1 ≤ n && n ≤ 24
  | .tagq g d a => g.wf && d.wf && a.wf
  | .launch g d a => g.wf && d.wf && a.wf
  | .lwait g d a _ => g.wf && d.wf && a.wf
  | .trap g n | .brk g n => g.wf && n < 256
  | .tret g _ => g.wf
  | .tinfo g d j => g.wf && d.wf && j < 16
  | .tlbinv g a b _ => g.wf && a.wf && b.wf
  | .iadd g d a b _ | .isub g d a b _ => g.wf && d.wf && a.wf && b.wf true
  | .imul g d a b | .and g d a b | .or g d a b | .xor g d a b | .andn g d a b | .shl g d a b | .shr g d a b
  | .sar g d a b | .rotl g d a b | .bcast g d a b => g.wf && d.wf && a.wf && b.wf true
  | .imulh g d a b _ | .imin g d a b _ | .imax g d a b _ | .idiv g d a b _ | .irem g d a b _ | .bfx g d a b _
    => g.wf && d.wf && a.wf && b.wf true
  | .imad g d a b c | .funl g d a b c | .funr g d a b c | .bfi g d a b c | .prmt g d a b c =>
    g.wf && d.wf && a.wf && b.wf && c.wf
  | .imadw g d a b c _ => g.wf && d.wf && a.wf && b.wf && c.wf
  | .iadd64 g d a b | .isub64 g d a b => g.wf && d.wf && a.wf && b.wf true
  | .iabs g d a _ | .ineg g d a _ => g.wf && d.wf && a.wf
  | .isat g d a _ => g.wf && d.wf && a.wf
  | .idot4 g d a b c _ _ | .idot2 g d a b c _ _ => g.wf && d.wf && a.wf && b.wf && c.wf
  | .lea g d a b sh _ => g.wf && d.wf && a.wf && b.wf true && sh < 32
  | .not g d a | .popc g d a | .clz g d a | .ctz g d a | .brev g d a => g.wf && d.wf && a.wf
  | .lop3 g d a b _ => g.wf && d.wf && a.wf && b.wf
  | .isetp g pd a b _ _ => g.wf && pd < 48 && a.wf && b.wf true
  | .sel g d a b pc => g.wf && d.wf && a.wf && b.wf true && pc < 48
  | .mov g d b => g.wf && d.wf && b.wf true
  | .movi g d _ => g.wf && d.wf
  | .movu g d b => g.wf && d.wf && b.wf
  | .plop3 g pd pa pb _ => g.wf && pd < 48 && pa < 48 && pb < 48
  | .p2v g d pa | .pcnt g d pa => g.wf && d.wf && pa < 48
  | .v2p g pd a _ => g.wf && pd < 48 && a.wf
  | .vote g pd pa _ => g.wf && pd < 48 && pa < 48
  | .elect g pd => g.wf && pd < 48
  | .shfl g d a b _ => g.wf && d.wf && a.wf && b.wf true
  | .redux g d a _ => g.wf && d.wf && a.wf
  | .scan g d a _ _ => g.wf && d.wf && a.wf
  | .match g d a b64 => g.wf && d.wf && a.wfSel b64
  | .cvtif g d a _ _ q s => g.wf && d.wfSel (q == .f64) && a.wfSel s
  | .cvtfi g d a _ _ q s => g.wf && d.wfSel s && a.wfSel (q == .f64)
  | .cvtff g d a _ q p => g.wf && d.wfSel (q == .f64) && a.wfSel (p == .f64)
  | .cvtn g d a b s | .cvtw g d a b s => g.wf && d.wf && a.wf && b.wf true && s < 8
  | .cbdec g d a _ _ => g.wf && d.wf && a.wf
  | .scalq g d a s => g.wf && d.wf && a.wf && s < 8
  | .amax g d a b _ _ => g.wf && d.wf && a.wf && b.wf false
  | .fadd g d a b m | .fsub g d a b m | .fmul g d a b m => g.wf && d.wf && a.wf && b.wf false && !m.nc
  | .ffma g d a b c _ => g.wf && d.wf && a.wf && b.wf && c.wf
  | .fmin g d a b | .fmax g d a b => g.wf && d.wf && a.wf && b.wf false
  | .fsetp g pd a b _ => g.wf && pd < 48 && a.wf && b.wf false
  | .fclass g d a | .frcp g d a | .frsq g d a | .fexpf g d a | .flogf g d a | .fsin g d a | .fcos g d a
  | .fexpo g d a | .fmant g d a => g.wf && d.wf && a.wf
  | .frnd g d a _ | .fsqrt g d a _ => g.wf && d.wf && a.wf
  | .fdiv g d a b _ => g.wf && d.wf && a.wf && b.wf false
  | .fscale g d a b _ => g.wf && d.wf && a.wf && b.wf true
  | .hadd2 g d a b _ | .hmul2 g d a b _ => g.wf && d.wf && a.wf && b.wf false
  | .hfma2 g d a b c _ | .fdot2 g d a b c _ => g.wf && d.wf && a.wf && b.wf && c.wf
  | .hmnmx2 g d a b _ _ => g.wf && d.wf && a.wf && b.wf false
  | .dadd g d a b m | .dmul g d a b m => g.wf && d.wf && a.wf && b.wf false && !m.nc
  | .dfma g d a b c _ => g.wf && d.wf && a.wf && b.wf && c.wf
  | .ld g sp w d a _ => g.wf && d.wfData w && a.wfBase sp
  | .st g sp w ofl d a _ => g.wf && d.wfData w && a.wfBase sp && (!ofl || sp == .gl)
  | .ldk g d a w b64 => g.wf && d.wfSel b64 && a.wf && w < 8
  | .ldacq g sp w sc d a _ | .strel g sp w sc d a _ =>
    g.wf && d.wfData w && a.wfBase sp && sp != .ln && (w == .b32 || w == .b64) && sc.wf
  | .atom g op m d a b => g.wf && m.wf && d.wfSel m.b64 && a.wfBase m.space && b.wfAtomB op m.b64
  | .atomc g m d a b c => g.wf && m.wf && d.wfSel m.b64 && a.wfBase m.space && b.wfSel m.b64 && c.wfSel m.b64
  | .red g op m a b => g.wf && m.wf && (m.ord == .relaxed || m.ord == .rel) && op != .exch &&
      a.wfBase m.space && b.wfAtomB op m.b64
  | .fence g _ => g.wf
  | .fencea g _ => g.wf
  | .cwb g _ a b | .cinv g _ a b => g.wf && a.wf && b.wf
  | .cpf g _ a _ => g.wf && a.wf
  | .slcdr g b => g.wf && b.wf
  | .cpy g ds ss d a b _ => g.wf && ds.wfCopy && ss.wfCopy && d.wfBase ds && a.wfBase ss && b.wfRun 1
  | .cpyt g ds ss d a b _ => g.wf && ds.wfCopy && ss.wfCopy && d.wfBase ds && a.wfBase ss && b.wfRun 3
  | .cpyx g ds ss d a b _ | .cpyo g ds ss d a b _ =>
    g.wf && ds.wfCopy && ss.wfCopy && d.wfBase ds && a.wfBase ss && b.wfRun 2
  | .cseal g d => g.wf && d.wf
  | .cwait g a => g.wf && a.wf
  | .shopen g a b | .shdrop g a b => g.wf && a.wf && b.wf
  | .publish g sc a b => g.wf && sc.wf && a.wf && b.wf
  | .put g ss t d a b _ => g.wf && ss.wfCopy && d.wfBase .gl && a.wfBase ss && b.wfRun (if t then 2 else 1)
  | .get g ds t d a b _ => g.wf && ds.wfCopy && d.wfBase ds && a.wfBase .gl && b.wfRun (if t then 2 else 1)
  | .mcast g a b c => g.wf && a.wf && b.wfRun 2 && c.wf
  | .lreg g d a b c => g.wf && d.wf && a.wf && b.wf && c.wf
  | .ldereg g b => g.wf && b.wf
  | .send g n a b c => g.wf && 1 ≤ n && n ≤ 256 && a.wf && b.wf && c.wf
  | .rpost g n d a b c => g.wf && 1 ≤ n && n ≤ 256 && d.wf && a.wf && b.wf && c.wf
  | .rpoll g d a => g.wf && d.wf && a.wf
  | .coll g a => g.wf && a.wf
  | .skmrg g a b sh => g.wf && a.wf && b.wf && (match sh with | none => true | some sc => sc.wf)
  | .tarm g d a b c => g.wf && d.wf && a.wf && b.wf && c.wf
  | .tadd g a b => g.wf && a.wf && b.wf
  | .trd g d a => g.wf && d.wf && a.wf
  | .tdisarm g d a => g.wf && d.wf && a.wf
  | .mma g t a b m | .mmac g t a b m => g.wf && t < 16 && a.wf && b.wf && m.wf
  | .mmas g t a b c m => g.wf && t < 16 && a.wf && b.wf && c.wf && m.wf
  | .mzero g t => g.wf && t < 16
  | .mrd g d t q => g.wf && d.wfRun 16 && t < 16 && q < 4
  | .mwr g t a q => g.wf && t < 16 && a.wfRun 16 && q < 4
  | .mld g t a => g.wf && t < 16 && a.wf
  | .mst g t gl _ s a => g.wf && t < 16 && s < 8 && a.wfSel gl
  | .skins g d a b c w | .skdel g d a b c w => g.wf && d.wf && a.wf && b.wf && c.wf && (w || c == .z)
  | .skqry g d a b c => g.wf && d.wf && a.wf && b.wf && c.wf
  | .skcard g d a c => g.wf && d.wf && a.wf && c.wf
  | .skrank g d a b c => g.wf && d.wf && a.wf && b.wf && c.wf
  | .skqtl g d a b c => g.wf && d.wf && a.wf && b.wf && c.wf
  | .skhash g d a b n => g.wf && d.wf && a.wf && a.wfRun (2 * n) && b.wf && 1 ≤ n && n ≤ 16
  | .skfold g sc a | .skclr g sc a => g.wf && sc.wf && a.wf
  | .skstat g d a j => g.wf && d.wf && a.wf && j < 8
  | .skinv g a => g.wf && a.wf
  | .clauseDispatch c | .handlerEntry c | .l1PeriodicInvalidate c => c < 512
  | .laneComplete w _ | .instructionRetire w | .watchdogExpire w => w.wf
  | .loadBind w _ _ | .storePerform w _ _ => w.wf
  | .writeAcknowledged w _ | .copyTransfer w _ | .copyLand w _ | .batchFinish w _ | .regionPublish w _ => w.wf
  | .tileOpExecute w t => w.wf && t < 16
  | .weigherUpdate w _ l => w.wf && l < 32
  | .mergeUnit w _ _ => w.wf
  | .l1WritebackTimer c _ k _ => c < 512 && k < 4096
  | .overflowSignatureClear sl => sl < 128
  | .porterServe cl => cl < 128
  | .lawLostReport w _ _ => w.wf
  | .cowTwinCopy p _ | .carterDrainPage p _ | .chargeExpire p _ => p < 8
  | .fillReroute _ => true
  | .doorbell q _ | .hostRingCopy q | .recordArrival q => q < 64
  | .remoteLaunchDelivery p | .retirementReport p | .retirementIncrement p | .readRequest p | .write p
  | .atomicOrRed p | .readOrAtomicResponse p | .acknowledgement p | .orderedFlagWrite p | .streamClose p
  | .message p | .multicastDelivery p | .collectiveChunk p | .negativeAcknowledgement p => p.wf
  | .teamPlace p | .redir p | .snapshotCut p | .snapshotRetry p | .snapshotAbort p => p < 8
  | .partitionEnable p _ | .partitionDisable p _ | .snapshotArm p _ => p < 8
  | .teamExit _ | .gridRetire _ | .deadlineExpire _ | .teamSave _ | .teamHalt _ => true
  | .preemptRequest c | .contextResume c | .contextDiscard c | .eventAppend c => c < 4096
  | .contextDefine c _ _ _ => c < 4096
  | .pageServiceAnswer p c | .pageServiceRefuse p c => p < 8 && c < 4096
  | .correctedError e | .uncorrectableError e => e.part < 8
  | .remoteTimeout _ | .flagHoldTimeout _ | .streamEntryCloseTimeout _ => true
  | .treeBreak t => t < 65536
  | .treeCreate _ | .treeRelease _ | .packageReset | .functionReady _ | .tlbi _ | .keyLoad | .keyZero
  | .energyWindowBoundary => true
  | .linkTraining f i l _ => f < 8192 && i < 256 && l.all fun v => 1 ≤ v && v < 256
  | .bar2Read _ _ | .bar2Write _ _ => true
  | .registerWrite _ _ => true
  | .treeRequestStatus _ _ => true

end Sys2Proof
end

