-- ==== Sys2Proof/Certificates/Slice0/Obligations.lean ====
section
/-! DEFINITION. The statements for the provers. -/

open Sys2Proof Sys2Proof.Machine Sys2Proof.Claims

/-! ### Reset and the step -/

/-- The machine right after package reset, where the spec gives a value (R123, R247, R353, R358; Tables 5-2, 6-5, 22-2, 22-5,
22-9 and 25-2): no function is ready, so a register of any of them reads zero; with every function ready the registers read
their resets; no partition, context, queue or engine is at work, memory is in its canonical form, and one interleave domain of all 128
slices homes every line. -/
def Obligations.ResetMachineState : Prop :=
  let s := State.reset
  let r := s.setReady ⟨true, true, true, true, true, true⟩
  s.ready = ⟨false, false, false, false, false, false⟩ ∧ (∀ off < 0x100000, s.apertureRead off = 0) ∧
  s.clock = 0 ∧ s.warps = [] ∧ s.teams = [] ∧ s.grids = [] ∧ s.mem.hbm.wf = true ∧ s.mem.frameMem.wf = true ∧
  r.apertureRead 0x00 = 1 ∧ r.apertureRead 0x08 = 32 ∧ r.apertureRead 0x10 = 10 ∧ r.apertureRead 0x38 = 0 ∧
  r.apertureRead 0x71000 = 0 ∧ r.apertureRead 0x71010 = 0 ∧ r.apertureRead 0x80800 = 26 ∧
  (∀ q < 64, r.apertureRead (0x10000 + 32 * q + 8) = 4) ∧
  (∀ c < 4096, (s.ctx c).v = false ∧ (s.ctx c).sysc = false ∧ (s.ctx c).preq = false ∧ (s.ctx c).lawf = false ∧
    (s.ctx c).part = 0 ∧ (s.ctx c).root = 0 ∧ (s.ctx c).save = 0) ∧
  (∀ p < 8, (∀ o < 0x60, r.apertureRead (0x40000 + 256 * p + o) = 0) ∧
    (∀ n < 16, r.apertureRead (0x40000 + 256 * p + 0x80 + 4 * n) = if n = 15 then 0x0000F else 0x2FFF0) ∧
    r.apertureRead (0x60000 + 128 * p + 0x20) = 0) ∧
  s.mem.l2dom = 0 ∧ s.mem.l2hash[0]? = some 0x87000001FFFFFFFF#64

/-- A step of a warp runs the instruction that its word decodes to: with nothing on the agenda, the warp that acts runs the
word at its position, or meets the fault of a word that decodes to none (R229, checks 1 to 3); an event on the agenda runs as
its row. Before it, time passes: the step number and the clock rise, and where nothing waits in the package or is due by then the
passage of time changes nothing else but the marks of the warps that have become ready. -/
def Obligations.StepRunsDecodedInstruction : Prop :=
  (∀ (s : State) (w : WarpId) (x : Warp) (c : Cursor) (word : DWord) (l : List DWord),
    s.agenda = [] → s.passed.cur = some w → s.passed.warp? w = some x → x.cursor = some c → c.words = word :: l →
    (∀ i, decode word = .ok i → step s = exec i s.passed) ∧
    (∀ k, decode word = .error (.illegalOpcode k) → step s = faultWord 0x01 s.passed) ∧
    (∀ k, decode word = .error (.illegalOperand k) →
      step s = faultWord (if classAllows c.eng (wordGroup word) then 0x03 else 0x02) s.passed)) ∧
  (∀ (s : State) (i : Instr) (l : List Action), s.agenda = .event i :: l → step s = exec i (s.passed.setAgenda l)) ∧
  (∀ (s : State), s.passed.stepNo = s.stepNo + 1) ∧
  (∀ (s : State), Quiet { s with stepNo := s.stepNo + 1, clock := s.clock + Config.stepCycles s.stepNo } →
    s.passed = { s with stepNo := s.stepNo + 1, clock := s.clock + Config.stepCycles s.stepNo, warps := s.passed.warps } ∧
    ∀ v, (s.passed.warp? v).map (fun y => { y with readySince := none }) =
      (s.warp? v).map fun y => { y with readySince := none })

/-- Words written out from the spec's encodings (Tables 11-5, 11-9, 12-2; the listings of chapters 12, 14, 16 and 18), and the
instructions that they stand for. -/
def Obligations.DecodeSpecWords : Prop := ∀ p ∈ specWords, decode p.1 = .ok p.2

/-- Decoding the word of a well-formed instruction gives the instruction back, with every operand at every value that its
encoding admits: no bit of an encoding is dropped (R227 to R235). -/
def Obligations.EncodeThenDecode : Prop := ∀ (i : Instr) (w : DWord), i.wf = true → encode i = some w → decode w = .ok i

/-- What the decoder accepts is well formed and is the only word of its instruction: every reserved field and bit of an
accepted word holds what the encoding gives it (R227, R228, R237). -/
def Obligations.DecodeThenEncode : Prop := ∀ (w : DWord) (i : Instr), decode w = .ok i → i.wf = true ∧ encode i = some w

/-- The dispatch checks, in their order (R225, R228, R229, R233): a group that the class forbids is an illegal clause (0x02);
of an instruction whose fields are legal and which is not privileged, a register at or above the allocation is the
register-bound fault (0x04), and nothing else fails; a privileged one outside a system context is the privilege fault (0x06).
Whatever check fails, its fault is taken once every older instruction has retired. A reserved opcode raises the illegal-opcode fault, whatever the rest of the word holds (R229, R233): once every older
instruction has retired, the warp takes the fault 0x01 at the word, with the lanes dispatched there. -/
def Obligations.DispatchChecksTrap : Prop :=
  ((∀ (s : State) (w : WarpId) (x : Warp) (c : Cursor) (i : Instr) (code : Nat),
     s.cur = some w → s.warp? w = some x → x.cursor = some c → State.canDispatch x = true → x.window = [] →
     (encode i).isSome → dispatchCheck (s.slots w) x x.inHandler (s.isSys w.team) c.eng i = some code →
     exec i s = .next (s.takeTrap w countersOf
       { pc := c.pc, word := c.words.headD 0, mask := c.rmask, hdr := false, frontier := x.fr, cursor := some c }
       (Trap.warp code c.rmask))) ∧
   (∀ (slot : Nat → Slot) (x : Warp) (hnd sys : Bool) (eng : Nat) (i : Instr),
     (¬ (groupOf i ≤ 4 ∨ (groupOf i = 5 ∧ eng = 1) ∨ (groupOf i = 6 ∧ eng = 2) ∨ (groupOf i = 7 ∧ eng = 3)) →
       dispatchCheck slot x hnd sys eng i = some 0x02) ∧
     (FieldsLegal slot x hnd eng i → dispatchCheck slot x hnd sys eng i =
       if ∃ r ∈ readRuns slot i ++ writeRuns slot i, r.1 < 768 ∧ 32 * x.g < r.1 + r.2 then some 0x04
       else if privileged i = true ∧ sys = false then some 0x06 else none))) ∧
  (∀ (s : State) (w : WarpId) (x : Warp) (c : Cursor) (word : DWord) (l : List DWord),
     s.agenda = [] → s.passed.cur = some w → s.passed.warp? w = some x → x.cursor = some c → c.words = word :: l →
     State.canDispatch x = true → x.window = [] → reservedOp (word.toNat / 2 ^ 55) = true →
     step s = .next (s.passed.takeTrap w countersOf
       { pc := c.pc, word := word, mask := c.rmask, hdr := false, frontier := x.fr, cursor := some c } (Trap.warp 0x01 c.rmask)))
/-! ### Registers, tags and predicates -/

/-- A register result under a mask (R72, R76, R228, R234, R425): the lanes of the mask hold the result and the others the old
value; a full mask tags it by the producer's rule, a partial one general; an empty mask changes nothing, tag included; a write
to `vz` is discarded; no other register, no predicate and no tile changes, and a load still on its way to the old contents no
longer reaches the name (R81). A predicate result likewise writes the bits of its lanes alone (R24). -/
def Obligations.ResultLanes : Prop :=
  (∀ (x : Warp) (n : Nat) (m : Mask) (t : Tag) (f : Nat → Word),
    (m = 0 → x.writeReg n m t f = x) ∧
    (n = 1023 → x.writeReg n m t f = x) ∧ (x.writeReg n m t f).reg 1023 = zeroReg ∧
    (∀ k < 992, (k < 768 ∨ 960 ≤ k) → (n < 768 ∨ 960 ≤ n) → k ≠ n → (x.writeReg n m t f).reg k = x.reg k) ∧
    ((n < 768 ∨ (960 ≤ n ∧ n < 992)) → m ≠ 0 →
      ((x.writeReg n m t f).reg n).tag = (if m = allLanes then t else .general) ∧
      (∀ k < 32, ((x.writeReg n m t f).reg n).at k = if m.getLsbD k then f k else (x.reg n).at k) ∧
      amFind (x.writeReg n m t f).pend n = none) ∧
    (x.writeReg n m t f).preds = x.preds ∧ (x.writeReg n m t f).tiles = x.tiles ∧
    (x.writeReg n m t f).ctr = x.ctr ∧ (x.writeReg n m t f).fr = x.fr ∧ (x.writeReg n m t f).cursor = x.cursor) ∧
  ∀ (x : Warp) (n : Nat) (m : Mask) (f : Nat → Bool),
    (∀ k < 32, ((x.writePred n m f).pred n).getLsbD k = if m.getLsbD k then f k else (x.pred n).getLsbD k) ∧
    (∀ q, q ≠ n → (x.writePred n m f).pred q = x.pred q) ∧
    ∃ p, x.writePred n m f = { x with preds := p }

/-- Tags stay true (R76, Table 4-2): a warp whose registers all have the shape that their tags say has it still after any
register instruction of groups 0 to 3, whatever its mask; but for `CVTN` under stochastic rounding, whose lanes differ while Table
4-2 tags it by its sources (log 105). -/
def Obligations.TagsStayTrue : Prop :=
  ∀ (s s2 : State) (w : WarpId) (x : Warp) (m : Mask) (i : Instr) (B : List VReg) (outs : List RegOut),
    TagsTrue x → (∀ g d a b n, i = .cvtn g d a b n → (s.slots w n).rnd < 4) → readB s w x i = (some B, s2) →
    (integerOuts x m B i = some outs ∨ crossOuts x m B i = some outs ∨ convertOuts (s.slots w) x m B i = some outs ∨
      (∃ v, floatOuts v x B i = some outs) ∨ controlOuts s w x i = some outs) →
    TagsTrue (x.writeAll m outs)

/-! ### Groups 0 to 3: what an instruction writes -/

/-- The integer instructions (R257 to R261, Table 12-6) and those between lanes or from predicates to registers (R218, R262 to
R265, Table 12-7) write to D, or to the pair D, the words that their exact definitions
give in every active lane, tagged by Table 4-2; the position moves on, and nothing else of the warp changes. The instructions that write a predicate (`ISETP`, `FSETP`, `PLOP3`, `V2P`, `VOTE`, `ELECT`; R260, R262, R269): the bits of
the active lanes are what the comparison, table, mask or vote gives; no register changes. -/
def Obligations.IntegerAndPredicateResults : Prop :=
  (∀ (s s2 : State) (w : WarpId) (x : Warp) (c : Cursor) (i : Instr) (B : List VReg) (outs : List RegOut),
     Oldest s w x c i → activeMask x c i ≠ 0 → readB (s.dispatched w x c i) w x i = (some B, s2) →
     (integerOuts x (activeMask x c i) B i = some outs ∨ crossOuts x (activeMask x c i) B i = some outs) →
     exec i s = .next ((s2.setWarp w ((x.past c s.clock).writeAll (activeMask x c i) outs)).endClause w)) ∧
  (∀ (s s2 : State) (w : WarpId) (x : Warp) (c : Cursor) (i : Instr) (B : List VReg) (pd : Nat) (f : Nat → Bool),
     Oldest s w x c i → activeMask x c i ≠ 0 → readB (s.dispatched w x c i) w x i = (some B, s2) →
     predOuts x (activeMask x c i) B i = some (pd, f) →
     exec i s = .next ((s2.setWarp w ((x.past c s.clock).writePred pd (activeMask x c i) f)).endClause w))


/-- The floating-point instructions (R266 to R283, Table 13-2): exact values, then one rounding; the function instructions by
the grid's function-table version (R219, R220). The conversions (R284 to R291, Table 13-5), under the slots of the grid. -/
def Obligations.FloatResults : Prop :=
  ∀ (s s2 : State) (w : WarpId) (x : Warp) (c : Cursor) (i : Instr) (B : List VReg) (outs : List RegOut) (gi : Nat) (g : Grid),
    Oldest s w x c i → activeMask x c i ≠ 0 → readB (s.dispatched w x c i) w x i = (some B, s2) →
    s.gridOf? w.team = some (gi, g) →
    (floatOuts g.ftv x B i = some outs ∨ convertOuts g.slot x (activeMask x c i) B i = some outs) →
    exec i s = .next ((s2.setWarp w ((x.past c s.clock).writeAll (activeMask x c i) outs)).endClause w)

/-- `NOP`, `SREAD`, `TAGQ` and `TINFO` (R78, R238, R247, R255; Tables 12-3 and 23-3): `NOP` does nothing; `SREAD` gives the
special register, a wide one in a pair, `sr_lane` alone affine; `TAGQ` the tag code of its source; `TINFO` a word of the trap
record. `LDK` (R114, R295): the words of the constant window at the lanes' indices, tagged as the index is; `.b64` writes the pair.
The count it raised has fallen again as it retires. -/
def Obligations.ControlAndConstantReads : Prop :=
  (∀ (s : State) (w : WarpId) (x : Warp) (c : Cursor) (i : Instr) (outs : List RegOut),
     Oldest s w x c i → activeMask x c i ≠ 0 → controlOuts s w x i = some outs →
     exec i s = .next ((s.setWarp w ((x.past c s.clock).writeAll (activeMask x c i) outs)).endClause w)) ∧
  (∀ (s u : State) (w : WarpId) (x : Warp) (c : Cursor) (g : Guard) (d a : Reg) (win : Nat) (b64 : Bool)
     (l : List (Nat × List Word)),
     Oldest s w x c (.ldk g d a win b64) → Fresh x →
     let i := Instr.ldk g d a win b64
     let m := activeMask x c i
     m ≠ 0 → windowWords w win b64 ((laneList m).map fun k => (k, (x.rd a k).toNat % 2 ^ 17)) (s.dispatched w x c i) = (some l, u) →
     exec i s = .next ((u.setWarp w ((x.past c s.clock).writeAll m
       (⟨d.field, tagOf [x.reg a.field], wordAt l 0⟩ ::
         if b64 then [⟨Warp.upper d.field, tagOf [x.reg a.field], wordAt l 1⟩] else []))).endClause w))

/-- `IDIV` and `IREM` never fault (R258): by zero they give 0xFFFF_FFFF and a, under either signedness; signed -2^31 by -1
gives 0x8000_0000 and 0; in every other case a = q·b + r exactly, with |r| < |b|. -/
def Obligations.DivisionResults : Prop :=
  ∀ (s s2 s3 : State) (w : WarpId) (x : Warp) (c : Cursor) (g : Guard) (d a : Reg) (b : SrcB) (u : Bool) (v : VReg),
    let i := Instr.idiv g d a b u
    let j := Instr.irem g d a b u
    let m := activeMask x c i
    Oldest s w x c i → Oldest s w x c j → m ≠ 0 → d ≠ .z →
    readB (s.dispatched w x c i) w x i = (some [v], s2) → readB (s.dispatched w x c j) w x j = (some [v], s3) →
    ∃ y z, exec i s = .next ((s2.setWarp w y).endClause w) ∧ exec j s = .next ((s3.setWarp w z).endClause w) ∧
      ∀ k < 32, m.getLsbD k = true →
        let n := rdInt u
        let q := (y.reg d.field).at k
        let r := (z.reg d.field).at k
        (v.at k = 0 → q = 0xFFFFFFFF#32 ∧ r = x.rd a k) ∧
        (u = false → x.rd a k = 0x80000000#32 → v.at k = 0xFFFFFFFF#32 → q = 0x80000000#32 ∧ r = 0) ∧
        (v.at k ≠ 0 → ¬ (u = false ∧ x.rd a k = 0x80000000#32 ∧ v.at k = 0xFFFFFFFF#32) →
          n (x.rd a k) = n q * n (v.at k) + n r ∧ |n r| < |n (v.at k)|)

/-- `TAGQ` returns the tag code of its source register, uniform (R78). -/
def Obligations.TagQuery : Prop :=
  ∀ (s : State) (w : WarpId) (x : Warp) (c : Cursor) (g : Guard) (d a : Reg),
    Oldest s w x c (.tagq g d a) → activeMask x c (.tagq g d a) = allLanes → d ≠ .z →
    ∃ y, exec (.tagq g d a) s = .next ((s.setWarp w y).endClause w) ∧ (y.reg d.field).tag = .uniform ∧
      ∀ k < 32, (y.reg d.field).at k =
        match (x.reg a.field).tag with
        | .uniform => 0
        | .affine => 1
        | .general => 2

/-- An instruction whose active mask is empty still retires, and changes no register, tag or predicate (R72, R237): its counts
fall again (R232), and the position moves on. Branches apart, which take no lane anywhere. -/
def Obligations.EmptyMaskRetires : Prop :=
  ∀ (s : State) (w : WarpId) (x : Warp) (c : Cursor) (i : Instr),
    Oldest s w x c i → activeMask x c i = 0 → (encode i).isSome →
    exec i s = .next ((s.setWarp w (x.past c s.clock)).endClause w)

/-! ### Floating-point values and rounding -/

/-- Rounding (R205 to R208, R214, R215): every FP32 and FP64 pattern that is no NaN comes back from its exact value, whatever
the rounding; and to nearest, ties to even, no FP32 number is nearer to the exact value than the result, and of two that are as
near the result has the even encoding. -/
def Obligations.Rounding : Prop :=
  (∀ (r : RMode) (n : Nat), n < 2 ^ 32 → fmtF32.value n ≠ .nan → fmtF32.round r false (fmtF32.value n) = n) ∧
  (∀ (r : RMode) (n : Nat), n < 2 ^ 64 → fmtF64.value n ≠ .nan → fmtF64.round r false (fmtF64.value n) = n) ∧
  ∀ (sg : Bool) (n d : Nat), 0 < n → 0 < d → (numQ (fmtF32.value (rne32 (.fin sg n d)))).isSome →
    ∀ (y : Nat) (q v : ℚ), y < 2 ^ 32 → numQ (fmtF32.value y) = some q →
      numQ (fmtF32.value (rne32 (.fin sg n d))) = some v →
      |v - exactQ sg n d| ≤ |q - exactQ sg n d| ∧
      (|v - exactQ sg n d| = |q - exactQ sg n d| → q ≠ v → rne32 (.fin sg n d) % 2 = 0)
/-! ### The end of a clause -/

/-! ### Group 0: branches -/

/-- `BRA`, `BRX`, `CALL`, `CALLX` and `RET` (R55, R66, R239, R240, R372): each lane that branches joins the entry at its target,
a call writes the address of the header after its clause to the link pair of those lanes, and the clause goes on with the
lanes that remain. `CALLX` reads its target before it writes the link. In handler state every lane goes with the lowest. A target that is no
multiple of 8 raises the alignment fault (0x13) for the whole mask, naming the lowest such lane and its address (R386). A clause ends with its last instruction or its last lane (R55, R63): before that nothing happens; at its end the port is
free and the lanes that remain form an entry at the header that follows, joining those waiting there; with no lane left, no
entry and an empty window a running warp exits. Its registers, predicates and tiles stay as they are. -/
def Obligations.BranchesAndClauseEnd : Prop :=
  ((∀ (s : State) (w : WarpId) (x : Warp) (c : Cursor) (i : Instr) (dst : Nat → Nat),
     Oldest s w x c i → goesTo x c (branchMask x c i) i = some dst →
     (∀ k < 32, (branchMask x c i).getLsbD k = true → dst k % 8 = 0) →
     ∃ t y, exec i s = .next (t.endClause w) ∧ t.warp? w = some y ∧ SameData (linked x c (branchMask x c i) i) y ∧
       y.window = [] ∧ y.status = x.status ∧ y.port = x.port ∧
       y.cursor = some { c.next with live := c.live &&& ~~~(branchMask x c i), rmask := c.live &&& ~~~(branchMask x c i) } ∧
       (∀ a, lanesAt y.fr a = lanesAt x.fr a ||| maskOf fun k => (branchMask x c i).getLsbD k && dst k == a) ∧
       (∀ v, wkey v ≠ wkey w → t.warp? v = s.warp? v) ∧ SameTeams s t) ∧
   ∀ (s : State) (w : WarpId) (x : Warp) (c : Cursor) (i : Instr) (dst : Nat → Nat) (k : Nat),
     Oldest s w x c i → (∀ g o, i ≠ .bra g o) → (∀ g d o, i ≠ .call g d o) →
     goesTo x c (branchMask x c i) i = some dst → k < 32 → (branchMask x c i).getLsbD k = true → dst k % 8 ≠ 0 →
     (∀ j < k, (branchMask x c i).getLsbD j = true → dst j % 8 = 0) →
     exec i s = .next (s.takeTrap w countersOf (posAt x c (branchMask x c i))
       { Trap.at 0x13 (branchMask x c i) (dst k) with lane := k })) ∧
  (∀ (s : State) (w : WarpId) (x : Warp) (c : Cursor), s.warp? w = some x → x.cursor = some c →
     (c.live ≠ 0 → c.pc < c.last → s.endClause w = s) ∧
     (c.live ≠ 0 → c.last ≤ c.pc → ∃ fr m f,
       s.endClause w = { s.setWarp w { x with cursor := none, port := none, fr := fr } with mem := m, fab := f } ∧
       ∀ a, lanesAt fr a = lanesAt x.fr a ||| (if a = c.last then c.live else 0)) ∧
     (c.live = 0 → (x.fr ≠ [] ∨ x.window ≠ [] ∨ x.status ≠ .running ∨ x.halt ≠ none) →
       s.endClause w = s.setWarp w { x with cursor := none, port := none }) ∧
     (c.live = 0 → x.fr = [] → x.window = [] → x.status = .running → x.halt = none →
       ∃ y, (s.endClause w).warp? w = some y ∧ y.status = .exited ∧ y.port = none ∧ y.cursor = none ∧ y.fr = [] ∧ SameData x y))

/-- `EXIT` (R55, R241, R305): its active lanes leave the clause and join no entry, so that a warp left without lanes exits at
the clause's end; the open batch of copies is sealed under the next serial; nothing is waited for or cancelled. `YIELD` and `WAIT` (R95, R242, R243, R372): `YIELD` takes the warp to its safe point where a pre-emption is requested and
the warp is not in handler state, and is a no-op elsewhere; `WAIT` retires once its counter is at or below n, 63 being always
passed, and until then waits at dispatch with its port, changing nothing. -/
def Obligations.ExitYieldAndWait : Prop :=
  (∀ (s : State) (w : WarpId) (x : Warp) (c : Cursor) (g : Guard),
     Oldest s w x c (.exit g) → activeMask x c (.exit g) ≠ 0 → (x.openBatch = [] ∨ x.ctr.cb < 255) →
     ∃ t y, exec (.exit g) s = .next (t.endClause w) ∧ t.warp? w = some y ∧
       y.cursor = some { c.next with live := c.live &&& ~~~(activeMask x c (.exit g)),
                                     rmask := c.live &&& ~~~(activeMask x c (.exit g)) } ∧
       y.fr = x.fr ∧ y.window = [] ∧ y.status = x.status ∧ y.regs = x.regs ∧ y.preds = x.preds ∧ y.tiles = x.tiles ∧
       y.loads = x.loads ∧ y.stores = x.stores ∧ y.copies = x.copies ∧ y.openBatch = [] ∧
       y.batches = x.batches ++ (if x.openBatch = [] then [] else [{ serial := (x.serial + 1) % 2 ^ 32, ops := x.openBatch }]) ∧
       y.ctr = (if x.openBatch = [] then x.ctr else { x.ctr with cb := x.ctr.cb + 1 }) ∧
       (∀ v, wkey v ≠ wkey w → t.warp? v = s.warp? v) ∧ SameTeams s t) ∧
  ((∀ (s : State) (w : WarpId) (x : Warp) (c : Cursor) (g : Guard),
     Oldest s w x c (.yield g) → activeMask x c (.yield g) ≠ 0 →
     exec (.yield g) s = .next ((s.setWarp w
       (if (s.ctx (s.ctxOf w.team)).preq = true ∧ x.inHandler = false then
         { x.past c s.clock with status := .yielded, port := none, wdHeld := some 0 } else x.past c s.clock)).endClause w)) ∧
   (∀ (s : State) (w : WarpId) (x : Warp) (c : Cursor) (g : Guard) (k : Ctr) (n : Nat),
     Oldest s w x c (.wait g k n) → activeMask x c (.wait g k n) ≠ 0 →
     exec (.wait g k n) s =
       if n = 63 ∨ x.ctr.get k ≤ n then .next ((s.setWarp w (x.past c s.clock)).endClause w) else .next s))

/-! ### Group 0: waits, barriers, rings -/

/-- Team barriers (R168, R245): `BARA` arrives, after its older accesses as a release at team scope, and writes the phase it
arrived in; the arrival latches the count where it is the first, and completes the phase when the target is met; `BARW`
retires once the phase differs from bit 0 of A, as an acquire of the completed phase's releases, and waits until then; `BARS`
arrives and, where its arrival completes the phase, acquires at once, or else waits for the phase it arrived in. A count above
64 is an illegal operand (0x03). -/
def Obligations.TeamBarriers : Prop :=
  ∀ (s : State) (w : WarpId) (x : Warp) (c : Cursor) (tm : Team) (b : Nat) (br : Bar),
    amSorted s.warps = true → s.team? w.team = some tm → tm.bars[b]? = some br →
    (∀ (g : Guard) (d cnt : Reg), Oldest s w x c (.bara g d cnt b) →
      let m := activeMask x c (.bara g d cnt b)
      let n := (x.rd cnt ((lowest m).getD 0)).toNat
      m ≠ 0 →
      (64 < n → exec (.bara g d cnt b) s = .next (((s.setWarp w { x with seq := x.seq + 1 }).takeTrap w countersOf
        (posAt x c m) (Trap.warp 0x03 m)).endClause w)) ∧
      (n ≤ 64 → s.olderDone w x x.seq .t = true → ∃ t, exec (.bara g d cnt b) s = .next (t.endClause w) ∧
        Past (released s w x c (.bara g d cnt b) .t) t w x c (x.writeReg d.field m .uniform fun _ => BitVec.ofNat 32 br.phase) ∧
        TeamNow s t w.team { tm with bars := tm.bars.set b (arrived br n (liveWarps s w.team) x.sigs.t) } ∧
        (t.warp? w).map Warp.sigs = some (x.sigs.clear .t))) ∧
    (∀ (g : Guard) (a : Reg), Oldest s w x c (.barw g a b) →
      let m := activeMask x c (.barw g a b)
      m ≠ 0 →
      (br.phase = (x.rd a ((lowest m).getD 0)).toNat % 2 →
        exec (.barw g a b) s = .next ((s.dispatched w x c (.barw g a b)).endClause w)) ∧
      (br.phase ≠ (x.rd a ((lowest m).getD 0)).toNat % 2 → ∃ t, exec (.barw g a b) s = .next (t.endClause w) ∧
        Past ((s.dispatched w x c (.barw g a b)).acquire w br.lastSig) t w x c x ∧ SameTeams s t ∧
        (t.warp? w).map Warp.sigs = some (x.sigs.join br.lastSig))) ∧
    (∀ (g : Guard) (cnt : Reg), Oldest s w x c (.bars g cnt b) → x.stage = [] →
      let m := activeMask x c (.bars g cnt b)
      let n := (x.rd cnt ((lowest m).getD 0)).toNat
      let br' := arrived br n (liveWarps s w.team) x.sigs.t
      m ≠ 0 → n ≤ 64 → s.olderDone w x x.seq .t = true →
      ∃ t, exec (.bars g cnt b) s = .next (t.endClause w) ∧ TeamNow s t w.team { tm with bars := tm.bars.set b br' } ∧
        (br'.phase ≠ br.phase → Past ((released s w x c (.bars g cnt b) .t).acquire w br'.lastSig) t w x c x ∧
          (t.warp? w).map Warp.sigs = some ((x.sigs.clear .t).join br'.lastSig)) ∧
        (br'.phase = br.phase → t.mem = (released s w x c (.bars g cnt b) .t).mem ∧ ∃ y, t.warp? w = some y ∧ y.window = [entryAt x c (.bars g cnt b)] ∧ y.stage = [br.phase] ∧
          SameData x y))

/-- Stage rings (R51, R168, R246, Table 3-8): `RPUT` fills an empty stage, `RGET` passes a full one of its phase unchanged, and
`RREL` counts a release and empties the stage at its CONS-th, each once no warp that has waited longer can proceed; `RPUT` and
`RREL` release at team scope into the stage, `RGET` acquires what the stage holds. An `RPUT` to a full stage waits among the
stage's waiters; a stage that the ring does not have is an illegal operand (0x03). -/
def Obligations.StageRings : Prop :=
  ∀ (s : State) (w : WarpId) (x : Warp) (c : Cursor) (g : Guard) (n st : Nat),
    (∀ (tm : Team) (sg : Stage), s.team? w.team = some tm → s.stage? w.team n st = some sg →
      (Oldest s w x c (.rput g n st) → activeMask x c (.rput g n st) ≠ 0 → sg.full = false → s.ringTurn w n st sg = true →
        s.olderDone w x x.seq .t = true → ∃ t, exec (.rput g n st) s = .next (t.endClause w) ∧
          Past (released s w x c (.rput g n st) .t) t w x c x ∧
          TeamNow s t w.team (withStage tm n st { full := true, phase := sg.phase, rcnt := 0, sig := sg.sig ||| x.sigs.t,
                                                  waiters := sg.waiters.filter fun v => v != w.widx }) ∧
          (t.warp? w).map Warp.sigs = some (x.sigs.clear .t)) ∧
      (Oldest s w x c (.rput g n st) → activeMask x c (.rput g n st) ≠ 0 → sg.full = true →
        exec (.rput g n st) s = .next (((s.dispatched w x c (.rput g n st)).setTeam w.team (withStage tm n st
          { sg with waiters := if w.widx ∈ sg.waiters then sg.waiters else sg.waiters ++ [w.widx] })).endClause w)) ∧
      (∀ ph : Bool, Oldest s w x c (.rget g n st ph) → activeMask x c (.rget g n st ph) ≠ 0 → sg.full = true →
        sg.phase = (if ph then 1 else 0) → s.ringTurn w n st sg = true →
        ∃ t, exec (.rget g n st ph) s = .next (t.endClause w) ∧
          Past ((s.dispatched w x c (.rget g n st ph)).acquire w sg.sig) t w x c x ∧
          TeamNow s t w.team (withStage tm n st { sg with waiters := sg.waiters.filter fun v => v != w.widx }) ∧
          (t.warp? w).map Warp.sigs = some (x.sigs.join sg.sig)) ∧
      (∀ (gi : Nat) (gr : Grid), s.gridOf? w.team = some (gi, gr) → Oldest s w x c (.rrel g n st) →
        activeMask x c (.rrel g n st) ≠ 0 → s.olderDone w x x.seq .t = true →
        ∃ t, exec (.rrel g n st) s = .next (t.endClause w) ∧ Past (released s w x c (.rrel g n st) .t) t w x c x ∧
          TeamNow s t w.team (withStage tm n st
            (if sg.rcnt + 1 = gr.cons n then { sg with full := false, phase := 1 - sg.phase, rcnt := 0, sig := 0 }
             else { sg with rcnt := (sg.rcnt + 1) % 64, sig := sg.sig ||| x.sigs.t })) ∧
          (t.warp? w).map Warp.sigs = some (x.sigs.clear .t))) ∧
    (s.stage? w.team n st = none → ∀ i, (i = .rput g n st ∨ i = .rrel g n st ∨ ∃ ph, i = .rget g n st ph) →
      Oldest s w x c i → activeMask x c i ≠ 0 →
      exec i s = .next (((s.setWarp w { x with seq := x.seq + 1 }).takeTrap w countersOf (posAt x c (activeMask x c i))
        (Trap.warp 0x03 (activeMask x c i))).endClause w))
/-! ### Group 0: special registers and allocation -/

/-- `SWRITE` (R123, R125, R126, R247 to R249): a 1 clears its bit of `sr_fstat`; `sr_mode` takes LAWF alone, for the context of
the team; `sr_l2dom` and `sr_l2hash`d take the fields of the stacks and domains that the partition owns, unless the mapping
they would make is one that R126 refuses (0x03), and the switch invalidates every clean line whose home changes, strands every
dirty one, and takes from each fill under way to an old home its place there. -/
def Obligations.SpecialRegisterWrites : Prop :=
  (∀ (s : State) (w : WarpId) (x : Warp) (c : Cursor) (g : Guard) (sr : Nat) (b : Reg),
    Oldest s w x c (.swrite g sr b) → activeMask x c (.swrite g sr b) ≠ 0 →
    let m := activeMask x c (.swrite g sr b)
    let l := (lowest m).getD 0
    let v := if srWide sr then (x.rd64n b.field l).toNat else (x.rd b l).toNat
    (∀ tm, sr = 15 → s.team? w.team = some tm → ∃ t fs, exec (.swrite g sr b) s = .next (t.endClause w) ∧
      Past s t w x c x ∧ TeamNow s t w.team { tm with fstat := fs } ∧
      ∀ k, fs.testBit k = (decide (k < 2) && tm.fstat.testBit k && !v.testBit k)) ∧
    (sr = 41 → ∃ t, exec (.swrite g sr b) s = .next (t.endClause w) ∧ Past s t w x c x ∧ t.teams = s.teams ∧
      ∀ n, t.ctx n = if n = s.ctxOf w.team then { s.ctx n with lawf := v.testBit 1 } else s.ctx n) ∧
    (32 ≤ sr → sr ≤ 40 →
      let p := s.part (s.partOf w.team)
      let r := mapWrite p s.mem.l2dom s.mem.l2hash sr v
      (mapRefused p r.1 r.2 = true → exec (.swrite g sr b) s = .next (((s.setWarp w { x with seq := x.seq + 1 }).takeTrap w
        countersOf (posAt x c m) (Trap.warp 0x03 m)).endClause w)) ∧
      (mapRefused p r.1 r.2 = false → ∃ t, exec (.swrite g sr b) s = .next (t.endClause w) ∧
        Past (s.setMem t.mem) t w x c x ∧ SameTeams s t ∧ t.mem.l2dom = r.1 ∧ t.mem.l2hash = r.2 ∧
        t.mem = { s.mem with l2dom := r.1, l2hash := r.2, l2 := t.mem.l2, strands := t.mem.strands, fills := t.mem.fills } ∧
        (∀ e ∈ s.mem.l2, e.dirty ≠ [] → e.slice = s.mem.l2Home (e.line * 128) →
          t.mem.l2Home (e.line * 128) ≠ s.mem.l2Home (e.line * 128) →
          ∃ k ∈ t.mem.strands, k.slice = e.slice ∧ k.line = e.line ∧ k.key = e.key) ∧
        t.mem.fills = s.mem.fills.map (fun f =>
          if t.mem.l2Home (f.line * 128) = s.mem.l2Home (f.line * 128) then f else { f with lost := true }) ∧
        ∀ e, e ∈ t.mem.l2 ↔ e ∈ s.mem.l2 ∧ (e.dirty = [] → t.mem.l2Home (e.line * 128) = s.mem.l2Home (e.line * 128))))) ∧
  (∀ (p : Part) (dom : DWord) (hash : List DWord) (n v : Nat),
    (mapWrite p dom hash 40 v).2 = hash ∧
    (∀ k < 12, (mapWrite p dom hash 40 v).1.toNat / 2 ^ (3 * k) % 8 =
      (if p.stackMask.testBit k then v else dom.toNat) / 2 ^ (3 * k) % 8) ∧
    (32 ≤ n → n < 40 → (mapWrite p dom hash n v).1 = dom ∧
      (∀ d, d ≠ n - 32 → (mapWrite p dom hash n v).2[d]? = hash[d]?) ∧
      (p.pdom.testBit (n - 32) = false → (mapWrite p dom hash n v).2 = hash)))

/-- `REGGROW` and `REGSHRINK` (R80, R250): growth that the free pool of the core covers, no earlier request still waiting,
raises G and writes 0; growth that must wait is refused with 1 under `.nw`, and without it waits its turn at dispatch, with its
port, its request among those of the core; G never falls.
`REGSHRINK` lowers G, and the names at the new bound and above lose their contents; it never raises G. -/
def Obligations.AllocationChanges : Prop :=
  (∀ (s : State) (w : WarpId) (x : Warp) (c : Cursor) (g : Guard) (d : Reg) (n : Nat) (nw : Bool),
    amSorted s.warps = true → Oldest s w x c (.reggrow g d n nw) → activeMask x c (.reggrow g d n nw) ≠ 0 →
    let i := Instr.reggrow g d n nw
    let m := activeMask x c i
    let left := s.modCore x.core fun k => { k with grow := k.grow.filter fun v => v != w }
    let fits := (s.growWaiting x.core).takeWhile (fun v => v != w) = [] ∧ 32 * (n - x.g) ≤ s.freeRegs x.core
    (n ≤ x.g → ∃ t, exec i s = .next (t.endClause w) ∧ Past left t w x c (x.writeReg d.field m .uniform fun _ => 0) ∧
      SameTeams s t) ∧
    (x.g < n → fits → ∃ t, exec i s = .next (t.endClause w) ∧
      Past left t w x c ({ x with g := n }.writeReg d.field m .uniform fun _ => 0) ∧ SameTeams s t) ∧
    (x.g < n → ¬ fits → nw = true → ∃ t, exec i s = .next (t.endClause w) ∧
      Past left t w x c (x.writeReg d.field m .uniform fun _ => 1) ∧ SameTeams s t) ∧
    (x.g < n → ¬ fits → nw = false → exec i s = .next (s.modCore x.core fun k =>
      { k with grow := if w ∈ k.grow then k.grow else k.grow ++ [w] }))) ∧
  (∀ (s : State) (w : WarpId) (x : Warp) (c : Cursor) (g : Guard) (n : Nat),
    Oldest s w x c (.regshrink g n) → activeMask x c (.regshrink g n) ≠ 0 →
    ∃ t y, exec (.regshrink g n) s = .next (t.endClause w) ∧ t.warp? w = some y ∧ SameTeams s t ∧ y.g = min n x.g ∧
      y.preds = x.preds ∧ y.tiles = x.tiles ∧ y.ctr = x.ctr ∧ y.window = [] ∧ y.cursor = some c.next ∧
      (∀ k < 768, y.reg k = if x.g ≤ n ∨ k < 32 * n then x.reg k else zeroReg) ∧
      ∀ v, wkey v ≠ wkey w → t.warp? v = s.warp? v)

/-! ### Group 0: launching -/

/-- `LAUNCH` and `LWAIT` (R45 to R48, R168, R252, R253): with every active lane's record passing its checks and the warp's
older writes performed, `LAUNCH` releases, at pod scope where a record names a process group and at chip scope elsewhere,
and enters each lane's record in lane order: copied whole into the device ring of the grid's queue, one level deeper, a child
of the grid, under a new handle of its context, which the lane receives. `LWAIT` writes 1 once no handle of an active lane is live, and waits
until then; under `.nb` it writes 1 in the lanes whose handle is not live and 0 in the others. -/
def Obligations.LaunchAndWait : Prop :=
  (∀ (s : State) (w : WarpId) (x : Warp) (c : Cursor) (g : Guard) (d a : Pair) (pod : Bool) (s1 s3 : State),
    Oldest s w x c (.launch g d a) → x.stage = [] →
    let i := Instr.launch g d a
    let m := activeMask x c i
    m ≠ 0 → (laneList m).foldl (checkRecord w x.seq (x.pushed c i) a) (.fine false, s.dispatched w x c i) = (.fine pod, s1) →
    s1.olderDone w (x.pushed c i) x.seq (if pod then .p else .c) = true →
    launchLanes w x.seq d a (laneList m)
      ((s1.release w (if pod then .p else .c)).2.modWarp w fun y => { y with stage := [32] }) = (none, s3) →
    exec i s = .next (((s3.inboxDrop w x.seq).leave w).endClause w)) ∧
  (∀ (s s1 : State) (w : WarpId) (id addr gi : Nat) (g : Grid) (l : List Byte),
    s.readVa w id addr 512 = (.bytes l, s1) → bytesNat l 0x050 8 = 0 → (s1.queue g.queue).en = true →
    (s1.queue g.queue).dev.length < 256 →
    let h := (s1.ctx g.ctx).nextHandle
    ∃ t r, (s.launchLane w id addr gi g).1 = some (h, t) ∧ (t.ctx g.ctx).nextHandle = h + 1 ∧
      (t.queue g.queue).dev = (s1.queue g.queue).dev ++ [r] ∧ r.record = l ∧ r.depth = g.depth + 1 ∧ r.parent = some gi ∧
      r.ctx = g.ctx ∧ r.handle = h ∧ t.warps = s1.warps ∧ t.teams = s1.teams) ∧
  (∀ (s : State) (w : WarpId) (x : Warp) (c : Cursor) (g : Guard) (d : Reg) (a : Pair) (nb : Bool),
    Oldest s w x c (.lwait g d a nb) →
    let i := Instr.lwait g d a nb
    let m := activeMask x c i
    let live := fun k => s.handleLive (s.ctxOf w.team) (x.rd64 a k).toNat
    m ≠ 0 →
    (nb = true → ∃ t, exec i s = .next (t.endClause w) ∧ SameTeams s t ∧
      Past (if (laneList m).all live = true then s else s.l1InvalidateAll x.core) t w x c
        (x.writeReg d.field m .general fun k => if live k then 0 else 1)) ∧
    (nb = false → (∀ k < 32, m.getLsbD k = true → live k = false) → ∃ t, exec i s = .next (t.endClause w) ∧ SameTeams s t ∧
      Past (s.l1InvalidateAll x.core) t w x c (x.writeReg d.field m .uniform fun _ => 1)) ∧
    (nb = false → (∃ k < 32, m.getLsbD k = true ∧ live k = true) →
      exec i s = .next ((s.dispatched w x c i).endClause w)))

/-! ### Group 0: exceptions -/

/-- `TRAP #n` and `BRK #n` (R254): with a lane active they raise 0x07 and 0x08 once they have completed in every active lane,
entering the handler under R82: the record carries n and an empty resume mask, so a plain `TRET` restores the position with no
lane to act there, and from there, as wherever no lane is active, they retire and the warp goes on after them. -/
def Obligations.SoftwareTraps : Prop :=
  (∀ (s : State) (w : WarpId) (x : Warp) (c : Cursor) (i : Instr) (n code : Nat),
    (∃ g, (i = .trap g n ∧ code = 0x07) ∨ (i = .brk g n ∧ code = 0x08)) → Oldest s w x c i →
    (activeMask x c i ≠ 0 → exec i s = .next (((s.setWarp w { x with seq := x.seq + 1 }).takeTrap w countersOf
      (posAt x c (activeMask x c i))
      { code := code, lanes := 0, lane := (lowest (activeMask x c i)).getD 0, addr := none, arg := n, sub := 0, aux := 0 }
      ).endClause w)) ∧
    (activeMask x c i = 0 → exec i s = .next ((s.setWarp w (x.past c s.clock)).endClause w))) ∧
  ∀ (h : Handler) (c : Cursor), h.trec.hdr = false → h.trec.resume = 0 → h.fcur = some c →
    resumed h false = (h.frozen, some { c with pc := h.trec.pc, live := h.trec.live, rmask := 0 })

/-- Taking an exception (R82, R367, R368, R370, R371, R374): outside handler state and with a handler, the warp enters
HANDLER, its younger instructions discarded, its registers, predicates and tiles kept, its frontier and position frozen, and
the record formed of the fault's code, place, lanes and address; with no warp of the core waiting it gets the lowest free bank
at once and stands at THND in the lanes of TMASK, the header there still to be read, h0 to h31 zero, the record stamped with the
clock; without a free bank it waits. In handler state or without a handler the warp stops, and its team halts: the context is pre-empted, and the record
holds 0x42 with the code in TAUX. -/
def Obligations.TrapEntry : Prop :=
  ∀ (s : State) (w : WarpId) (x : Warp) (p : Pos) (tr : Trap), s.warp? w = some x → w.widx < 64 → amSorted s.warps = true →
    (x.inHandler = false → s.thndOf w.team ≠ 0 → (∀ e ∈ s.warpsOn x.core, State.waitsBank e.2 = false) →
      ∃ y h, (s.takeTrap w countersOf p tr).warp? w = some y ∧ y.handler = some h ∧ y.status = .handler ∧ y.window = [] ∧
        y.cursor = none ∧ y.port = none ∧ y.regs = x.regs ∧ y.preds = x.preds ∧ y.tiles = x.tiles ∧ y.g = x.g ∧
        h.frozen = p.frontier ∧ h.fcur = p.cursor ∧ h.trec.code = tr.code ∧ h.trec.arg = tr.arg ∧ h.trec.pc = p.pc ∧
        h.trec.insn = p.word ∧ h.trec.mask = p.mask ∧ h.trec.resume = tr.lanes ∧ h.trec.lane = tr.lane ∧
        h.trec.addr = tr.addr.getD 0 ∧ h.trec.addrv = tr.addr.isSome ∧ h.trec.hdr = p.hdr ∧ h.trec.live = p.live ∧
        h.trec.widx = w.widx ∧ h.trec.nest = false ∧ h.trec.halt = false ∧
        (∀ v, wkey v ≠ wkey w → (s.takeTrap w countersOf p tr).warp? v = s.warp? v) ∧
        (∀ k, (s.core x.core).banks.findIdx? Option.isNone = some k → h.bank = some k ∧ h.started = true ∧ y.hregs = [] ∧
          h.trec.clk = s.clock ∧ ((s.takeTrap w countersOf p tr).core x.core).banks = (s.core x.core).banks.set k (some w) ∧
          y.fr = if p.mask = 0 then [] else [{ addr := s.thndOf w.team, mask := p.mask, prio := 0, passes := 0, rejoin := false,
                                               known := false }]) ∧
        ((s.core x.core).banks.findIdx? Option.isNone = none → h.bank = none ∧ y.fr = [])) ∧
    (x.inHandler = true ∨ s.thndOf w.team = 0 → ∀ tm, s.team? w.team = some tm →
      ∃ y r, (s.takeTrap w countersOf p tr).warp? w = some y ∧ y.halt = some r ∧ y.window = [] ∧ y.port = none ∧
        y.regs = x.regs ∧ y.preds = x.preds ∧ r.code = 0x42 ∧ r.halt = true ∧ r.aux = tr.code ∧ r.pc = p.pc ∧
        r.insn = p.word ∧ r.mask = p.mask ∧ r.resume = tr.lanes ∧ r.nest = x.inHandler ∧
        (((s.takeTrap w countersOf p tr).team? w.team).map fun q => (q.halted, q.forced)) =
          some (some (tm.halted.getD tr.code), true) ∧
        ((s.takeTrap w countersOf p tr).ctx (s.ctxOf w.team)).preq = true)

/-- `TRET` (R82, R255, R373): handler state ends and the frozen frontier returns; the interrupted clause goes on at the trapped
instruction in the lanes of TRESUME, or after it under `.skip` in the lanes of TLIVE; a fault of a clause selection gives its
lanes back to the frontier at the header, or drops them. The bank is free once no h register that was pending then is still to be
written. -/
def Obligations.TrapReturn : Prop :=
  ∀ (s : State) (w : WarpId) (x : Warp) (c : Cursor) (g : Guard) (skip : Bool) (h : Handler),
    Oldest s w x c (.tret g skip) → activeMask x c (.tret g skip) ≠ 0 → x.handler = some h →
    exec (.tret g skip) s = .next ((((s.setWarp w { x with
      seq := x.seq + 1, window := [], status := .running, handler := none, hregs := [], port := none, stage := [], refused := [],
      lostWords := [], lastRetire := s.clock, fr := (resumed h skip).1, cursor := (resumed h skip).2
      pend := x.pend.filter fun n => n.1 < 960
      drains := x.drains ++ (h.bank.map fun k => (k, (x.pend.filter fun n => 960 ≤ n.1).map fun n => n.2)).toList
      }).freeBank w).checkExit w).endClause w) ∧
    ∀ (t : State) (y : Warp), t.warp? w = some y →
      ((t.freeBank w).warp? w).map Warp.drains = some (y.drains.filter fun d => d.2.any (State.unbound y)) ∧
      ∀ k, ((t.freeBank w).core k).banks = if k = y.core then
          (t.core k).banks.mapIdx fun j b => if y.drains.any (fun d => d.1 == j && d.2.all fun id => !State.unbound y id) then none else b
        else (t.core k).banks

/-- `TLBINV` and the host's TLBI (R119, R256, R351): after a release at chip scope, every translation buffer of the package
drops the leaf that maps the address for the context, or every translation of that context, and keeps all others. An
identifier that names no context of the partition is an illegal operand (0x03). -/
def Obligations.TranslationsInvalidated : Prop :=
  (∀ (s : State) (w : WarpId) (x : Warp) (c : Cursor) (g : Guard) (a : Pair) (b : Reg) (all : Bool),
    Oldest s w x c (.tlbinv g a b all) →
    let i := Instr.tlbinv g a b all
    let m := activeMask x c i
    let n := (x.rd b ((lowest m).getD 0)).toNat % 4096
    let va := (x.rd64 a ((lowest m).getD 0)).toNat
    let u := released s w x c i .c
    m ≠ 0 →
    (((s.ctx n).v = false ∨ (s.ctx n).part ≠ s.partOf w.team) →
      exec i s = .next (((s.setWarp w { x with seq := x.seq + 1 }).takeTrap w countersOf (posAt x c m)
        (Trap.warp 0x03 m)).endClause w)) ∧
    ((s.ctx n).v = true → (s.ctx n).part = s.partOf w.team → s.olderDone w x x.seq .c = true →
      ∃ t, exec i s = .next (t.endClause w) ∧ Past (u.setMem t.mem) t w x c x ∧ SameTeams s t ∧
        t.mem = { u.mem with cores := t.mem.cores, hubTlb := t.mem.hubTlb } ∧
        (t.warp? w).map Warp.sigs = some (x.sigs.clear .c) ∧
        (∀ k, t.core k = { u.core k with tlb := (u.core k).tlb.filter fun e => !(e.ctx == n && (all || State.tlbHit n va e)) }) ∧
        ∀ k, amGet [] t.mem.hubTlb k = (amGet [] u.mem.hubTlb k).filter fun e => !(e.ctx == n && (all || State.tlbHit n va e)))) ∧
  (∀ (s : State) (v : DWord), s.ready.compute = true → v.getLsbD 63 = true → ∃ t, exec (.tlbi v) s = .next t ∧
    (∀ k, (t.core k).tlb = (s.core k).tlb.filter fun e =>
      !(e.ctx == v.toNat % 4096 && (v.getLsbD 62 || State.tlbHit (v.toNat % 4096) s.host.tlbiva e))) ∧
    t.warps = s.warps ∧ t.teams = s.teams)
/-! ### Group 4: memory -/

/-- The checks of one lane of an access, in the order of R386: alignment (0x13), then in a 32-bit space its size (R393, 0x14),
or in global memory the 57 bits of an address (0x10) and its translation and permission (R115 to R117); what passes is the
lane's access, cut by words in lane scratch (R106). -/
def Obligations.LaneChecks : Prop :=
  ∀ (s : State) (w : WarpId) (sp : Space) (store : Bool) (n k ea : Nat) (win : Option Nat),
    (ea % n ≠ 0 → s.laneCheck w sp store n k ea win = (.fail 0x13 ea, s)) ∧
    (ea % n = 0 → sp ≠ .gl → s.spaceSize w.team sp < ea + n → s.laneCheck w sp store n k ea win = (.fail 0x14 ea, s)) ∧
    (ea % n = 0 → sp ≠ .gl → ea + n ≤ s.spaceSize w.team sp →
      (∀ a ∈ laneAccs k sp ea n, ∀ p, s.pageAt w.team a.loc = some p → s.pageReady w.team p (s.coreOf w) = true) →
      s.laneCheck w sp store n k ea win = (.acc (laneAccs k sp ea n), s)) ∧
    (ea % n = 0 → sp = .gl → 2 ^ 57 ≤ ea → s.laneCheck w sp store n k ea win = (.fail 0x10 ea, s)) ∧
    (ea % n = 0 → sp = .gl → ∀ (e : Tlb) (t : State),
      s.xlate (s.coreOf w) (s.ctxOf w.team) ea (if store then .store else .load) = (.ok e, t) → pteType e.leaf < 2 →
      s.laneCheck w sp store n k ea win =
        (if store = true ∧ pteType e.leaf = 0 ∧ pteTwin e.leaf = 1 then .fail 0x15 ea
         else .acc [{ lane := k, ea := ea, loc := State.locOf e ea, len := n }], t))

/-- `LD` and `LDACQ` (R73, R232, R293, R296): with every active lane past its checks the load retires and leaves its operation
behind, its destinations pending and `ld` one higher; no register has changed yet, and no byte of memory. With no lane
past them the lowest failing lane's fault is taken, with its address and the lanes that have not completed (R386, R387). -/
def Obligations.LoadsIssue : Prop :=
  (∀ (s u : State) (w : WarpId) (x : Warp) (c : Cursor) (i : Instr) (sp : Space) (n : Nat) (d : Reg) (ea : Nat → Nat)
    (acq : Option Scope) (win : Bool) (l : List (Nat × LaneRes)),
    loadForm x i = some (sp, n, d, ea, acq, win) → Oldest s w x c i → Fresh x → activeMask x c i ≠ 0 →
    (s.dispatched w x c i).laneChecks (activeMask x c i)
      (fun k t => t.laneCheck w sp false n k (ea k) (if win then some 0 else none)) = (l, u) →
    allPass l = true →
    exec i s = .next ((u.setWarp w { x.past c s.clock with
      ctr := x.ctr.add .ld true
      pend := pending x.pend (runOf d.field ((n + 3) / 4)) x.seq
      loads := x.loads ++ [loadLeft x (runOf d.field ((n + 3) / 4)) acq (resAccs l) (activeMask x c i)]
      sigs := sigsWith x.sigs (skLines u.fab.fid (skLanes l))
      skOps := x.skOps ++ windowLeft (lawOf u w) x c i (skLanes l) }).endClause w)) ∧
  ∀ (s u : State) (w : WarpId) (x : Warp) (c : Cursor) (i : Instr) (sp : Space) (n : Nat) (d : Reg) (ea : Nat → Nat)
    (acq : Option Scope) (win : Bool) (l : List (Nat × LaneRes)) (k code a : Nat),
    loadForm x i = some (sp, n, d, ea, acq, win) → Oldest s w x c i → Fresh x → activeMask x c i ≠ 0 → x.ctr.ld < 255 →
    (s.dispatched w x c i).laneChecks (activeMask x c i)
      (fun k t => t.laneCheck w sp false n k (ea k) (if win then some 0 else none)) = (l, u) →
    doneLanes l = 0 →
    (l.filterMap fun r => match r.2 with | .fail code a => some (r.1, code, a) | _ => none).head? = some (k, code, a) →
    exec i s = .next (trapsWith u w x c (activeMask x c i) { Trap.at code (activeMask x c i) a with lane := k })

/-- `ST`, `STREL`, `ATOM`, `ATOMC` and `RED` (R73, R75, R166, R232, R294, R296 to R298): with every active lane past its checks
the instruction retires and leaves behind the operation that performs later, each lane's address and bytes in it, a byte that
several lanes write keeping its highest lane's, and the lines it will write in its signatures; a floating-point add under
deterministic mode raises 0x50 instead (R222). -/
def Obligations.StoresIssue : Prop :=
  ∀ (s u : State) (w : WarpId) (x : Warp) (c : Cursor) (i : Instr) (f : StoreForm) (l : List (Nat × LaneRes)),
    storeForm x i = some f → Oldest s w x c i → Fresh x → activeMask x c i ≠ 0 →
    let bad := (f.kind = .atom .fadd ∨ f.kind = .red .fadd) ∧ ∃ gi g, s.gridOf? w.team = some (gi, g) ∧ g.det = true
    (bad → exec i s = .next (((s.setWarp w { x with seq := x.seq + 1 }).takeTrap w countersOf (posAt x c (activeMask x c i))
      (Trap.warp 0x50 (activeMask x c i))).endClause w)) ∧
    (¬ bad → (s.dispatched w x c i).laneChecks (activeMask x c i) (fun k t =>
        t.laneCheck w f.space true f.bytes k (f.ea k) (if f.window then some (leNat (f.data k).1) else none)) = (l, u) →
      allPass l = true →
      exec i s = .next ((u.setWarp w (hasStored s w x c i f l)).endClause w))

/-- `FENCE` (R162, R165, R299): it waits until every older access of the warp has performed at the scope; then at a scope wider
than the warp the core's dirty bytes reach their homes, its L1 keeps no line, and the signatures of the scope and the narrower
ones are empty. `FENCEA` (R183) waits for the acknowledgements of the remote writes on the path groups named. -/
def Obligations.Fences : Prop :=
  (∀ (s : State) (w : WarpId) (x : Warp) (c : Cursor) (g : Guard) (sc : Scope),
    Oldest s w x c (.fence g sc) → activeMask x c (.fence g sc) ≠ 0 →
    (s.olderDone w x x.seq sc = false → exec (.fence g sc) s = .next ((s.dispatched w x c (.fence g sc)).endClause w)) ∧
    (s.olderDone w x x.seq sc = true → ∃ t, exec (.fence g sc) s = .next (t.endClause w) ∧
      Past ((s.dispatched w x c (.fence g sc)).fence w sc) t w x c x ∧ SameTeams s t ∧
      (sc = .w → t.mem = s.mem) ∧
      (sc ≠ .w → (t.core x.core).l1 = [] ∧ (t.warp? w).map Warp.sigs = some (x.sigs.clear sc)))) ∧
  (∀ (s : State) (w : WarpId) (x : Warp) (c : Cursor) (g : Guard) (mask : BitVec 4),
    Oldest s w x c (.fencea g mask) → activeMask x c (.fencea g mask) ≠ 0 →
    let unsent := (∃ o ∈ x.stores, o.id < x.seq ∧ ∃ q ∈ o.accs, o.todo.getLsbD q.acc.lane = true ∧
        ∃ f a k, q.acc.loc = .remote f a k) ∨ ∃ o ∈ x.copies, o.id < x.seq ∧ o.stage = .issued ∧
          (o.kind = .put ∨ (∃ a b c, o.kind = .mcast a b c) ∨ ∃ a b c, o.kind = .send a b c)
    let unacked := ∃ r ∈ s.fab.reqs, State.countedWrite r.kind = true ∧ mask.getLsbD (r.link / 4) = true ∧
        ∃ k < x.seq, r.owner = .store w k ∨ r.owner = .copy w k
    (mask = 0 ∨ (¬ unsent ∧ ¬ unacked) →
      exec (.fencea g mask) s = .next ((s.setWarp w (x.past c s.clock)).endClause w)) ∧
    (mask ≠ 0 → unsent ∨ unacked → exec (.fencea g mask) s = .next ((s.dispatched w x c (.fencea g mask)).endClause w)))

/-- `CWB` and `CINV` (R292, R300) complete: over a range of no bytes they do nothing; past 2^57 they raise 0x03; else, with the
warp's older stores performed and no dirty line of the core held by a snapshot, they retire, and every line of the range leaves
the core's L1 clean, and under `.l2` its home slice too; `CINV` keeps none of them there. `CPF` (R301) always completes: it changes
no register, raises nothing, and starts the fill of a lane's line where its address translates to local memory, or asks its home
for it where it is remote. `SLCDR` (R302) completes once no Weigher update is pending at the slice: it writes the dirty lines of a
slice of the partition to memory and leaves the slice empty; a slice of another hub is an illegal operand (0x03). -/
def Obligations.CacheInstructions : Prop :=
  (∀ (s : State) (w : WarpId) (x : Warp) (c : Cursor) (i : Instr) (g : Guard) (l2 drop : Bool) (a : Pair) (b : Reg),
     i = (if drop then .cinv g l2 a b else .cwb g l2 a b) → Oldest s w x c i →
     let m := activeMask x c i
     let va := (x.rd64 a ((lowest m).getD 0)).toNat
     let n := (x.rd b ((lowest m).getD 0)).toNat
     m ≠ 0 →
     (n = 0 → exec i s = .next ((s.setWarp w (x.past c s.clock)).endClause w)) ∧
     (n ≠ 0 → 2 ^ 57 < va + n → exec i s = .next (((s.setWarp w { x with seq := x.seq + 1 }).takeTrap w countersOf
       (posAt x c m) (Trap.warp 0x03 m)).endClause w)) ∧
     (n ≠ 0 → va + n ≤ 2 ^ 57 → (∀ o ∈ x.stores, o.id < x.seq → o.todo = 0) → s.flushHeld x.core = false →
       ∃ t, exec i s = .next (t.endClause w) ∧ Past ((s.setMem t.mem).setFab t.fab) t w x c x ∧ SameTeams s t ∧
         let ps := ((s.dispatched w x c i).localPieces w va n).1
         (∀ e ∈ (t.core x.core).l1, e.line / 2 ^ 33 = s.fab.fid → inRange ps (e.line % 2 ^ 33) e.key →
           drop = false ∧ e.dirty = []) ∧
         (l2 = true → ∀ e ∈ t.mem.l2, e.slice = t.mem.l2Home (e.line * 128) → inRange ps e.line e.key →
           drop = false ∧ e.dirty = []))) ∧
  ((∀ (s : State) (w : WarpId) (x : Warp) (c : Cursor) (g : Guard) (l2 : Bool) (a : Pair) (off : BitVec 20),
     Oldest s w x c (.cpf g l2 a off) → activeMask x c (.cpf g l2 a off) ≠ 0 →
     ∃ t f, exec (.cpf g l2 a off) s = .next (t.endClause w) ∧ Past ((s.setMem t.mem).setFab t.fab) t w x c x ∧ SameTeams s t ∧
       t.mem.fills = s.mem.fills ++ f ∧ (∀ q ∈ f, q.slice = s.mem.l2Home (q.line * 128)) ∧
       ∀ (k : Nat) (e : Tlb) (u : State) (pa key cls : Nat), k < 32 → activeMask x c (.cpf g l2 a off) = laneBit k →
         let va := (x.rd64 a k + off.signExtend 64).toNat
         (s.dispatched w x c (.cpf g l2 a off)).xlate x.core (s.ctxOf w.team) va .load = (.ok e, u) →
         (State.locOf e va = .mem pa key cls →
           f = [{ slice := s.mem.l2Home pa, line := pa / 128, key := key, cls := cls }]) ∧
         ∀ fid, State.locOf e va = .remote fid pa key → f = [] ∧ ∃ r ∈ t.fab.reqs, r.kind = .readReq ∧ r.fid = fid ∧
           r.va = pa / 128 * 128 ∧ r.slot = key ∧ r.owner = if l2 then .nobody else .prefetch x.core) ∧
   (∀ (s : State) (w : WarpId) (x : Warp) (c : Cursor) (g : Guard) (b : Reg),
     Oldest s w x c (.slcdr g b) →
     let i := Instr.slcdr g b
     let m := activeMask x c i
     let n := (x.rd b ((lowest m).getD 0)).toNat % 128
     m ≠ 0 →
     ((s.part (s.partOf w.team)).hubMask.testBit (n / 8) = false → exec i s = .next (((s.setWarp w { x with
       seq := x.seq + 1 }).takeTrap w countersOf (posAt x c m) (Trap.warp 0x03 m)).endClause w)) ∧
     ((s.part (s.partOf w.team)).hubMask.testBit (n / 8) = true → (s.dispatched w x c i).sliceBusy n = false →
       ∃ t, exec i s = .next (t.endClause w) ∧ Past (s.setMem t.mem) t w x c x ∧ SameTeams s t ∧
         t.mem.l2 = (s.mem.l2.filter fun e => e.slice != n) ∧
         t.mem = { s.mem with l2 := t.mem.l2, hbm := t.mem.hbm, stamps := t.mem.stamps } ∧
         ((∀ e ∈ s.mem.l2, e.slice = n → ∀ b ∈ e.bytes, b.1 < 128) →
           ∀ p, (∀ e ∈ s.mem.l2, e.slice = n → e.dirty ≠ [] → e.line ≠ p / 128) →
             Memory.get t.mem.hbm p = Memory.get s.mem.hbm p))))
/-! ### Group 5: engine operations -/

/-- `CPY`, `CPYT`, `CPYX`, `CPYO`, `PUT` and `GET` at issue (R170, R303 to R305, R393, R395): with no byte to move they do
nothing; a base that is no multiple of 4 raises 0x13, a size or a stride that is none, a row above 4,096 bytes or a counter of
another partition 0x03, and a side past its scratch space 0x14; past the checks of both sides the operation joins the open
batch, a destination in virtual scratch enters the scoreboard, and the instruction retires with no byte moved. -/
def Obligations.CopiesIssue : Prop :=
  ∀ (s : State) (w : WarpId) (x : Warp) (c : Cursor) (i : Instr) (p : CopyPlan),
    Oldest s w x c i → activeMask x c i ≠ 0 → copyForm x (activeMask x c i) i = some p →
    let m := activeMask x c i
    let bad := (∃ n ∈ p.sizes, n % 4 ≠ 0) ∨ 4096 < p.row ∨ ∃ k, p.ntf = some k ∧ s.trigIn (s.partOf w.team) k = false
    (p.rows = [] → exec i s = .next ((s.setWarp w (x.past c s.clock)).endClause w)) ∧
    (p.rows ≠ [] → p.dst % 4 ≠ 0 → exec i s = .next (trapsWith s w x c m (Trap.at 0x13 m p.dst))) ∧
    (p.rows ≠ [] → p.dst % 4 = 0 → p.src % 4 ≠ 0 → exec i s = .next (trapsWith s w x c m (Trap.at 0x13 m p.src))) ∧
    (p.rows ≠ [] → p.dst % 4 = 0 → p.src % 4 = 0 → bad → exec i s = .next (trapsWith s w x c m (Trap.warp 0x03 m))) ∧
    (p.rows ≠ [] → p.dst % 4 = 0 → p.src % 4 = 0 → ¬ bad →
      (p.ds ≠ .gl → s.spaceSize w.team p.ds < (dstHull p).2 →
        exec i s = .next (trapsWith s w x c m (Trap.at 0x14 m (s.spaceSize w.team p.ds)))) ∧
      ∀ (first : CopyRow) (l1 l2 : List (Loc × Nat)) (f1 f2 : Nat) (u1 u2 : State), p.rows.head? = some first →
        (s.dispatched w x c i).sideCheck w p.ds true (p.kind == .put) first.dst (dstHull p) = (.ok l1, f1, u1) →
        u1.sideCheck w p.ss false (p.kind == .get) first.src (srcHull p) = (.ok l2, f2, u2) →
        ((p.ds = .sc ∨ p.ds = .cl) → (u2.core x.core).scoreboard.length < 64) →
        (x.openBatch.length < 255 ∨ x.ctr.cb < 255) →
        exec i s = .next (((boarded u2 w x p).setWarp w (joinedBatch (x.past c s.clock)
          (opLeft x c m p.kind p.ds p.ss p.rows p.ntf (if p.kind = .put then f1 else f2)))).endClause w))

/-- Batches (R305): `CSEAL` seals the open batch, raising `cb`, and writes the serial last given; `CWAIT` waits while a batch
of the serial is unfinished, and never for serial 0; a batch finishes once every operation in it has landed, `cb` falling and its operations leaving. -/
def Obligations.Batches : Prop :=
  (∀ (s : State) (w : WarpId) (x : Warp) (c : Cursor) (g : Guard) (d : Reg),
    Oldest s w x c (.cseal g d) → activeMask x c (.cseal g d) ≠ 0 → (x.openBatch = [] ∨ x.ctr.cb < 255) →
    exec (.cseal g d) s = .next ((s.setWarp w ((sealedBatch (x.past c s.clock)).writeReg d.field
      (activeMask x c (.cseal g d)) .uniform fun _ => BitVec.ofNat 32 (sealedBatch x).serial)).endClause w)) ∧
  (∀ (s : State) (w : WarpId) (x : Warp) (c : Cursor) (g : Guard) (a : Reg),
    Oldest s w x c (.cwait g a) →
    let m := activeMask x c (.cwait g a)
    let n := (x.rd a ((lowest m).getD 0)).toNat
    m ≠ 0 →
    ((n = 0 ∨ ∀ b ∈ x.batches, b.serial ≠ n) → exec (.cwait g a) s = .next ((s.setWarp w (x.past c s.clock)).endClause w)) ∧
    (n ≠ 0 → (∃ b ∈ x.batches, b.serial = n) → exec (.cwait g a) s = .next ((s.dispatched w x c (.cwait g a)).endClause w))) ∧
  (∀ (s : State) (w : WarpId) (x : Warp) (n : Nat) (b : Batch), s.warp? w = some x →
    x.batches.find? (fun b => b.serial == n) = some b →
    ((∀ o ∈ x.copies, o.id ∈ b.ops → o.stage = .landed) → exec (.batchFinish w n) s = .next (s.setWarp w { x with
      batches := x.batches.filter fun q => q.serial != n
      copies := x.copies.filter fun o => !b.ops.contains o.id
      ctr := { x.ctr with cb := x.ctr.cb - 1 } })) ∧
    ((∃ o ∈ x.copies, o.id ∈ b.ops ∧ o.stage ≠ .landed) → exec (.batchFinish w n) s = .next s))

/-- `SHOPEN`, `PUBLISH` and `SHDROP` (R171 to R175, R292, R306, R398): over a range of no bytes they do nothing; a range with a leaf
that R398 refuses raises its fault at its address. Opening takes each leaf to TWIN 01, a frame of the twin pool under it, and waits where one cannot be had. Publication
waits for the team's engine writes to the range and for what a release waits for, releases, and publishes every leaf: the twin
is the page's frame, the old frame redirected to it and back in the pool. Dropping gives the twin back and publishes nothing. -/
def Obligations.ShadowInstructions : Prop :=
  (∀ (s u : State) (w : WarpId) (x : Warp) (c : Cursor) (i : Instr) (a : Pair) (b : Reg) (l : List (Nat × Option Tlb)),
    (∃ g, i = .shopen g a b ∨ (∃ sc, i = .publish g sc a b) ∨ i = .shdrop g a b) → Oldest s w x c i →
    let m := activeMask x c i
    let va := (x.rd64 a ((lowest m).getD 0)).toNat
    let n := (x.rd b ((lowest m).getD 0)).toNat
    m ≠ 0 → (n = 0 → exec i s = .next ((s.setWarp w (x.past c s.clock)).endClause w)) ∧
    (n ≠ 0 → (s.dispatched w x c i).warpLeaves w va n = (l, u) →
    (∀ code va, State.leavesBad l (s.isSys w.team) = some (code, va) →
      exec i s = .next (trapsWith u w x c m (Trap.at code m va))) ∧
     (State.leavesBad l (s.isSys w.team) = none →
      (∀ g t, i = .shopen g a b → u.openLeaves w.team (State.leavesOf l) = (true, t) →
        exec i s = .next ((t.setWarp w (x.past c s.clock)).endClause w)) ∧
      (∀ g t, i = .shopen g a b → u.openLeaves w.team (State.leavesOf l) = (false, t) → exec i s = .next (t.endClause w)) ∧
      (∀ g, i = .shdrop g a b →
        exec i s = .next ((((State.leavesOf l).foldl State.dropLeaf u).setWarp w (x.past c s.clock)).endClause w)) ∧
      (∀ g sc, i = .publish g sc a b → u.engWrites w.team va n = false → u.olderDone w (x.pushed c i) x.seq sc = true →
        (∀ e ∈ State.leavesOf l, u.publishHeld (s.partOf w.team) e = false) →
        exec i s = .next ((((State.leavesOf l).foldl State.publishLeaf (u.release w sc).2).setWarp w
          { x.past c s.clock with sigs := x.sigs.clear sc }).endClause w))))) ∧
  (∀ (s : State) (t f : Nat) (e : Tlb), pteTwin e.leaf = 0 →
    (s.part (s.partOf t)).twins.find? (fun f => !s.frameBusy f) = some f →
    ∃ u : State, s.openLeaf t e = (some (u.rewriteLeaf e.eaddr (pteSetTwin e.leaf 1)), s) ∧
      u.mem.shadows = s.mem.shadows ++ [{ eaddr := e.eaddr, orig := pteAddr e.leaf, twin := f, key := pteKey e.leaf,
                                          part := s.partOf t, team := t, written := [] }] ∧
      u.mem.hbm = s.mem.hbm ∧ (u.part (s.partOf t)).twins = (s.part (s.partOf t)).twins.filter fun k => k != f) ∧
  (∀ (s : State) (e : Tlb) (h : Shadow), pteTwin e.leaf = 1 → s.shadowOf e.eaddr = some h →
    (s.publishLeaf e).shadowOf e.eaddr = none ∧ (h.orig, h.twin, h.part) ∈ (s.publishLeaf e).mem.redirs ∧
    ((s.publishLeaf e).part h.part).twins = (s.part h.part).twins ++ [h.orig] ∧
    (s.dropLeaf e).shadowOf e.eaddr = none ∧ (s.dropLeaf e).mem.redirs = s.mem.redirs ∧
    ((s.dropLeaf e).part h.part).twins = (s.part h.part).twins ++ [h.twin])

/-- `MCAST`, `COLL` and `SEND` (R188, R194, R199, R307, R309, R310, R421): an operand that names no tree, no chunk or no legal
size is illegal (0x03) and a broken tree raises 0x31; else the operation joins the open batch, a chunk contributed twice as one
that has landed, while a message joins no batch and `st` rises until its acknowledgement. -/
def Obligations.FabricSends : Prop :=
  (∀ (s : State) (w : WarpId) (x : Warp) (c : Cursor) (g : Guard) (a : Pair) (b k : Reg),
    Oldest s w x c (.mcast g a b k) →
    let m := activeMask x c (.mcast g a b k)
    let l := (lowest m).getD 0
    let n := (x.rd b l).toNat % 8192
    let v := nextWord x b 1 l
    let off := (x.rd k l).toNat
    m ≠ 0 →
    (s.treeOf (v / 65536) = none ∨ n = 0 ∨ 4096 < n ∨ off % 4 ≠ 0 →
      exec (.mcast g a b k) s = .next (trapsWith s w x c m (Trap.warp 0x03 m))) ∧
    (∀ t, s.treeOf (v / 65536) = some t → 0 < n → n ≤ 4096 → off % 4 = 0 →
      (t.broken = true → exec (.mcast g a b k) s = .next (trapsWith s w x c m (Trap.warp 0x31 m))) ∧
      (t.broken = false → (x.openBatch.length < 255 ∨ x.ctr.cb < 255) →
        exec (.mcast g a b k) s = .next ((s.setWarp w (joinedBatch (x.past c s.clock) (opLeft x c m
          (.mcast t.ident (v % 65536) off) .gl .gl [⟨(x.rd64 a l).toNat, 0, n⟩] none 0))).endClause w)))) ∧
  (∀ (s : State) (w : WarpId) (x : Warp) (c : Cursor) (g : Guard) (a : Reg) (gi : Nat) (gr : Grid),
    Oldest s w x c (.coll g a) → s.gridOf? w.team = some (gi, gr) →
    let m := activeMask x c (.coll g a)
    let n := (x.rd a ((lowest m).getD 0)).toNat
    let live := ∃ t, s.treeOf gr.tree = some t ∧ t.broken = false
    let op := opLeft x c m (.coll n) .gl .gl [⟨(gr.rbase + n * gr.chunk) % 2 ^ 64, 0, gr.chunk⟩] none 0
    m ≠ 0 →
    (gr.cben = false ∨ gr.total ≤ n → exec (.coll g a) s = .next (trapsWith s w x c m (Trap.warp 0x03 m))) ∧
    (gr.cben = true → n < gr.total → ¬ live → exec (.coll g a) s = .next (trapsWith s w x c m (Trap.warp 0x31 m))) ∧
    (gr.cben = true → n < gr.total → live → (x.openBatch.length < 255 ∨ x.ctr.cb < 255) →
      exec (.coll g a) s = .next (((if n ∈ gr.sent then s else s.setGrid gi { gr with sent := gr.sent ++ [n] }).setWarp w
        (joinedBatch (x.past c s.clock) (if n ∈ gr.sent then { op with stage := .landed } else op))).endClause w))) ∧
  (∀ (s : State) (w : WarpId) (x : Warp) (c : Cursor) (g : Guard) (len : Nat) (a : Pair) (b k : Reg),
    Oldest s w x c (.send g len a b k) → Fresh x →
    let m := activeMask x c (.send g len a b k)
    let l := (lowest m).getD 0
    let v := (x.rd b l).toNat
    m ≠ 0 →
    (2 ^ 29 ≤ v ∨ v / 4096 % 16 ≠ 0 → exec (.send g len a b k) s = .next (trapsWith s w x c m (Trap.warp 0x03 m))) ∧
    (v < 2 ^ 29 → v / 4096 % 16 = 0 →
      exec (.send g len a b k) s = .next ((s.setWarp w { x.past c s.clock with
        ctr := { x.ctr with st := x.ctr.st + 1 }
        copies := x.copies ++ [opLeft x c m (.send (v / 65536) (v % 4096) (x.rd k l).toNat) .gl .gl
          [⟨(x.rd64 a l).toNat, 0, len⟩] none 0] }).endClause w)))

/-- `LREG`, `LDEREG`, `RPOST` and `RPOLL` (R168, R188 to R190, R193, R195, R308, R309, R399). Registration writes 0 and adds the
buffer, 1 where the package holds 1,024 registrations, 2 where the context has the identifier already; a buffer that is no multiple
of 256 is misaligned (0x13), a length that is none or a counter of another partition illegal (0x03); deregistration closes the
registration to new deliveries and removes it once none is outstanding. A receive takes the lowest free slot of the team's 64, written to D, or 0xFFFFFFFF where none is free; the oldest
message in the overflow that matches is delivered into it at once. Polling a slot returns its completion word, zero while nothing
has come; with DONE set it frees the slot and acquires at chip scope. -/
def Obligations.LandingAndReceives : Prop :=
  (∀ (s : State) (w : WarpId) (x : Warp) (c : Cursor) (g : Guard) (d : Reg) (a : Pair) (b k : Reg),
    Oldest s w x c (.lreg g d a b k) →
    let i := Instr.lreg g d a b k
    let m := activeMask x c i
    let l := (lowest m).getD 0
    let buf := (x.rd64 a l).toNat
    let n := (x.rd b l).toNat
    let v := (x.rd k l).toNat
    let cx := s.ctxOf w.team
    let writes := fun (t : State) (z : Word) => (t.setWarp w ((x.past c s.clock).writeReg d.field m .uniform fun _ => z)).endClause w
    let r : Landing := { ctx := cx, ident := v % 65536, buf := buf, len := n, closed := false,
                         ctr := if v.testBit 31 then some (v / 65536 % 4096) else none }
    let bad := n = 0 ∨ n % 256 ≠ 0 ∨ (v.testBit 31 = true ∧ s.trigIn (s.partOf w.team) (v / 65536 % 4096) = false)
    m ≠ 0 →
    (buf % 256 ≠ 0 → exec i s = .next (trapsWith s w x c m (Trap.at 0x13 m buf))) ∧
    (buf % 256 = 0 → bad → exec i s = .next (trapsWith s w x c m (Trap.warp 0x03 m))) ∧
    (buf % 256 = 0 → ¬ bad → 1024 ≤ s.fab.landings.length → exec i s = .next (writes s 1)) ∧
    (buf % 256 = 0 → ¬ bad → s.fab.landings.length < 1024 →
      (∃ q ∈ s.fab.landings, q.ctx = cx ∧ q.ident = v % 65536) → exec i s = .next (writes s 2)) ∧
    (buf % 256 = 0 → ¬ bad → s.fab.landings.length < 1024 → (∀ q ∈ s.fab.landings, q.ctx = cx → q.ident ≠ v % 65536) →
      exec i s = .next (writes (s.setFab { s.fab with landings := s.fab.landings ++ [r] }) 0))) ∧
  (∀ (s : State) (w : WarpId) (x : Warp) (c : Cursor) (g : Guard) (b : Reg),
    Oldest s w x c (.ldereg g b) →
    let m := activeMask x c (.ldereg g b)
    let mine := fun (q : Landing) => q.ctx == s.ctxOf w.team && q.ident == (x.rd b ((lowest m).getD 0)).toNat % 65536
    m ≠ 0 →
    ((∀ q ∈ s.fab.landings, mine q = true → q.begun = []) → exec (.ldereg g b) s = .next (((s.setFab { s.fab with
      landings := s.fab.landings.filter fun q => !mine q }).setWarp w (x.past c s.clock)).endClause w)) ∧
    ((∃ q ∈ s.fab.landings, mine q = true ∧ q.begun ≠ []) → exec (.ldereg g b) s = .next ((((s.dispatched w x c
      (.ldereg g b)).setFab { s.fab with landings := s.fab.landings.map fun q => if mine q then { q with closed := true } else q
      })).endClause w))) ∧
  (∀ (s : State) (w : WarpId) (x : Warp) (c : Cursor) (g : Guard) (len : Nat) (d : Reg) (a : Pair) (b : Reg) (k : Pair) (tm : Team),
    Oldest s w x c (.rpost g len d a b k) → s.team? w.team = some tm →
    let i := Instr.rpost g len d a b k
    let m := activeMask x c i
    let l := (lowest m).getD 0
    let v := (x.rd b l).toNat
    let writes := fun (t : State) (z : Word) => (t.setWarp w ((x.past c s.clock).writeReg d.field m .uniform fun _ => z)).endClause w
    let r : RSlot := { posted := true, order := s.fab.nextPost, src := v / 65536 % 8192, srcMask := v % 8192,
                       tag := (x.rd64 k l).toNat % 2 ^ 32, tagMask := (x.rd64 k l).toNat / 2 ^ 32, buf := (x.rd64 a l).toNat,
                       ctx := s.ctxOf w.team, len := len, word := 0 }
    m ≠ 0 →
    (2 ^ 29 ≤ v ∨ v / 8192 % 8 ≠ 0 → exec i s = .next (trapsWith s w x c m (Trap.warp 0x03 m))) ∧
    (v < 2 ^ 29 → v / 8192 % 8 = 0 → (∀ n < 64, n ∈ tm.rslots.map (·.1)) → exec i s = .next (writes s 0xFFFFFFFF#32)) ∧
    (∀ n < 64, v < 2 ^ 29 → v / 8192 % 8 = 0 → n ∉ tm.rslots.map (·.1) → (∀ j < n, j ∈ tm.rslots.map (·.1)) →
      (s.fab.overflow.find? (State.matches' r) = none →
        exec i s = .next (writes ((s.setFab { s.fab with nextPost := s.fab.nextPost + 1 }).setTeam w.team
          { tm with rslots := amSet tm.rslots n r }) (BitVec.ofNat 32 n))) ∧
      (∀ p, s.fab.overflow.find? (State.matches' r) = some p →
        (s.dispatched w x c i).ctxHeld r.ctx r.buf p.data.length = false →
        let t := s.setFab { s.fab with nextPost := s.fab.nextPost + 1, overflow := s.fab.overflow.erase p }
        exec i s = .next (writes (t.deliver w.team n r p) (BitVec.ofNat 32 n))))) ∧
  (∀ (s : State) (w : WarpId) (x : Warp) (c : Cursor) (g : Guard) (d : Pair) (a : Reg) (tm : Team),
    Oldest s w x c (.rpoll g d a) → Fresh x → s.team? w.team = some tm →
    let m := activeMask x c (.rpoll g d a)
    let n := (x.rd a ((lowest m).getD 0)).toNat
    let word : DWord := ((amFind tm.rslots n).map RSlot.word).getD 0
    m ≠ 0 →
    (64 ≤ n → exec (.rpoll g d a) s = .next (trapsWith s w x c m (Trap.warp 0x03 m))) ∧
    (n < 64 → exec (.rpoll g d a) s = .next (((if word.getLsbD 63 then
        (s.setTeam w.team { tm with rslots := amErase tm.rslots n }).l1InvalidateAll x.core else s).setWarp w
      ((x.past c s.clock).writePair d.field m .uniform .uniform fun _ => word)).endClause w)))

/-- `TARM`, `TADD`, `TRD` and `TDISARM` (R196, R197, R312, R313, R396): a counter of another partition is illegal (0x03). `TADD`
releases at chip scope and adds, saturating at 64 bits; `TRD` reads the value; `TARM` arms an operation record that passes its
checks under the next handle that none has, or writes 0 where 1,024 are armed; `TDISARM` removes the operation of a handle that
has not fired and writes 1, else 0. What the counter has reached fires at once. -/
def Obligations.TriggerInstructions : Prop :=
  (∀ (s : State) (w : WarpId) (x : Warp) (c : Cursor) (g : Guard) (a : Reg) (b : Pair),
    Oldest s w x c (.tadd g a b) → Fresh x →
    let i := Instr.tadd g a b
    let m := activeMask x c i
    let k := (x.rd a ((lowest m).getD 0)).toNat % 4096
    let v := (x.rd64 b ((lowest m).getD 0)).toInt
    let sum := max (-2 ^ 63) (min (2 ^ 63 - 1) (s.trigGet k + v))
    m ≠ 0 →
    (s.trigIn (s.partOf w.team) k = false → exec i s = .next (trapsWith s w x c m (Trap.warp 0x03 m))) ∧
    (s.trigIn (s.partOf w.team) k = true → s.olderDone w x x.seq .c = true →
      ∃ t y, exec i s = .next (t.endClause w) ∧ t.trigGet k = sum ∧ t.warp? w = some y ∧ SameData x y ∧
        y.cursor = some c.next ∧ y.window = [] ∧ y.sigs = x.sigs.clear .c ∧ (∀ v, wkey v ≠ wkey w → t.warp? v = s.warp? v) ∧
        ((v ≤ 0 ∨ ∀ o ∈ s.fab.armed, o.ctr = k → o.due = true ∨ sum < o.thr) →
          Past ((released s w x c i .c).trigSet k sum) t w x c x ∧ SameTeams s t))) ∧
  (∀ (s : State) (w : WarpId) (x : Warp) (c : Cursor) (g : Guard) (d : Pair) (a : Reg),
    Oldest s w x c (.trd g d a) → Fresh x →
    let m := activeMask x c (.trd g d a)
    let k := (x.rd a ((lowest m).getD 0)).toNat % 4096
    m ≠ 0 →
    (s.trigIn (s.partOf w.team) k = false → exec (.trd g d a) s = .next (trapsWith s w x c m (Trap.warp 0x03 m))) ∧
    (s.trigIn (s.partOf w.team) k = true → exec (.trd g d a) s = .next ((s.setWarp w ((x.past c s.clock).writePair d.field m
      .uniform .uniform fun _ => BitVec.ofInt 64 (s.trigGet k))).endClause w))) ∧
  (∀ (s u : State) (w : WarpId) (x : Warp) (c : Cursor) (g : Guard) (d a : Reg) (b k : Pair) (r : List Byte),
    Oldest s w x c (.tarm g d a b k) →
    let i := Instr.tarm g d a b k
    let m := activeMask x c i
    let l := (lowest m).getD 0
    let n := (x.rd a l).toNat % 4096
    let va := (x.rd64 k l).toNat
    let h := u.freeArm
    let o : Armed := { handle := h, ctr := n, thr := (x.rd64 b l).toInt, ctx := s.ctxOf w.team, team := w.team
                       order := u.fab.nextOrder, opRec := r, due := false, cause := none }
    let inbox := u.fab.inbox.filter fun p => !(p.tag == wkey w && p.ofcnt == x.seq)
    let armed := u.setFab { u.fab with inbox := inbox, armed := u.fab.armed ++ [o], nextArm := h % (2 ^ 32 - 1) + 1
                                       nextOrder := u.fab.nextOrder + 1 }
    let writes := fun (t : State) (z : Word) => (t.setWarp w ((x.past c s.clock).writeReg d.field m .uniform fun _ => z)).endClause w
    m ≠ 0 →
    (va % 64 ≠ 0 → exec i s = .next (trapsWith s w x c m (Trap.at 0x13 m va))) ∧
    (va % 64 = 0 → s.trigIn (s.partOf w.team) n = false → exec i s = .next (trapsWith s w x c m (Trap.warp 0x03 m))) ∧
    (va % 64 = 0 → s.trigIn (s.partOf w.team) n = true → (s.dispatched w x c i).readVa w x.seq va 64 = (.bytes r, u) →
      (opRecOk r = false → exec i s = .next (trapsWith (u.setFab { u.fab with inbox := inbox }) w x c m (Trap.warp 0x03 m))) ∧
      (opRecOk r = true → 1024 ≤ u.fab.armed.length → exec i s = .next (writes (u.setFab { u.fab with inbox := inbox }) 0)) ∧
      (opRecOk r = true → u.fab.armed.length < 1024 → u.trigGet n < o.thr →
        (∀ q ∈ u.fab.armed, q.ctr = n → q.due = true ∨ u.trigGet n < q.thr) →
        exec i s = .next (writes armed (BitVec.ofNat 32 h))) ∧
      (opRecOk r = true → u.fab.armed.length < 1024 →
        exec i s = .next (((((armed.fireReached n (some (w, x.seq))).modWarp w fun y =>
          y.writeReg d.field m .uniform fun _ => BitVec.ofNat 32 h)).leave w).endClause w)))) ∧
  (∀ (s : State), 0 < s.fab.nextArm → s.fab.nextArm < 2 ^ 32 → s.fab.armed.length < 1024 →
    0 < s.freeArm ∧ s.freeArm < 2 ^ 32 ∧ ∀ o ∈ s.fab.armed, o.handle ≠ s.freeArm) ∧
  (∀ (s : State) (w : WarpId) (x : Warp) (c : Cursor) (g : Guard) (d a : Reg),
    Oldest s w x c (.tdisarm g d a) →
    let m := activeMask x c (.tdisarm g d a)
    let h := (x.rd a ((lowest m).getD 0)).toNat
    let hit := fun (o : Armed) => o.handle == h && !o.due
    m ≠ 0 → exec (.tdisarm g d a) s = .next (((s.setFab { s.fab with armed := s.fab.armed.filter fun o => !hit o }).setWarp w
      ((x.past c s.clock).writeReg d.field m .uniform fun _ => if s.fab.armed.any hit then 1 else 0)).endClause w))
/-! ### Group 6: tiles -/

/-- `MMA`, `MMAS`, `MMAC`, `MZERO`, `MRD`, `MWR`, `MLD` and `MST` at issue (R315 to R326): a scratch or global address that is no
multiple of 16 is misaligned (0x13) and a range past the team's scratch raises 0x14 with its size; else the instruction retires
with its register operands read and leaves its operation for the engine, `tl` one higher, no tile, register or byte of memory
changed; the destinations of `MRD` are pending. `MST` to scratch takes a scoreboard entry. `MREL` only retires (R323). -/
def Obligations.TileInstructions : Prop :=
  (∀ (s : State) (w : WarpId) (x : Warp) (c : Cursor) (i : Instr) (f : TileForm),
    Oldest s w x c i → Fresh x →
    let m := activeMask x c i
    m ≠ 0 → tileForm (s.slots w) x ((lowest m).getD 0) i = some f →
    let issues := fun (a n : Nat) => exec i s = .next ((s.setWarp w { hasTiled (x.past c s.clock)
      (tileLeft x m i f.tile f.a f.c a n []) with pend := pending x.pend f.dst x.seq }).endClause w)
    (f.range = none → issues 0 0) ∧
    ∀ a n, f.range = some (a, n) →
      (a % 16 ≠ 0 → exec i s = .next (trapsWith s w x c m (Trap.at 0x13 m a))) ∧
      (a % 16 = 0 → s.spaceSize w.team .sc < a + n →
        exec i s = .next (trapsWith s w x c m (Trap.at 0x14 m (s.spaceSize w.team .sc)))) ∧
      (a % 16 = 0 → a + n ≤ s.spaceSize w.team .sc → issues a n)) ∧
  (∀ (s : State) (w : WarpId) (x : Warp) (c : Cursor) (g : Guard) (t : Nat) (gl cvt : Bool) (k : Nat) (a : Reg),
    let i := Instr.mst g t gl cvt k a
    Oldest s w x c i → Fresh x →
    let m := activeMask x c i
    let l := (lowest m).getD 0
    let n := 32 * storedLen (s.slots w) cvt k
    let va := if gl then (x.rd64n a.field l).toNat else (x.rd a l).toNat
    m ≠ 0 →
    (va % 16 ≠ 0 → exec i s = .next (trapsWith s w x c m (Trap.at 0x13 m va))) ∧
    (va % 16 = 0 → gl = true → ∀ (u : State) (ps : List (Loc × Nat)),
      (s.dispatched w x c i).engGl w va n true none false = (.ok ps, u) →
      exec i s = .next ((u.setWarp w (hasTiled (x.past c s.clock) (tileLeft x m i t [] [] va n ps))).endClause w)) ∧
    (va % 16 = 0 → gl = true → ∀ (u : State) (code at' : Nat),
      (s.dispatched w x c i).engGl w va n true none false = (.fail code at', u) →
      exec i s = .next (trapsWith u w x c m (Trap.at code m at'))) ∧
    (va % 16 = 0 → gl = false → s.spaceSize w.team .sc < va + n →
      exec i s = .next (trapsWith s w x c m (Trap.at 0x14 m (s.spaceSize w.team .sc)))) ∧
    (va % 16 = 0 → gl = false → va + n ≤ s.spaceSize w.team .sc → (s.core x.core).scoreboard.length < 64 →
      exec i s = .next (((s.modCore x.core fun k => { k with scoreboard := k.scoreboard ++
          [{ team := w.team, sp := .sc, lo := va, hi := va + n, warp := w.widx, id := x.seq }] }).setWarp w
        (hasTiled (x.past c s.clock) (tileLeft x m i t [] [] va n []))).endClause w))) ∧
  (∀ (s : State) (w : WarpId) (x : Warp) (c : Cursor) (g : Guard), Oldest s w x c (.mrel g) →
    exec (.mrel g) s = .next ((s.setWarp w (x.past c s.clock)).endClause w))

/-- The engine carries out the oldest operation on a tile (R322, R324, R327): every active row takes the words of the operation,
every other row, column and tile keeps its words, and `tl` falls; one that reads scratch needs the bytes, and waits without them;
`MRD` gives its destinations the tile's words in the active lanes; the rows of `MST` go to scratch, or to memory as engine
writes. With no operation on the tile nothing happens. -/
def Obligations.TileExecution : Prop :=
  ∀ (s : State) (w : WarpId) (x : Warp) (tile : Nat), s.warp? w = some x → tile < 32 →
    (x.tileOps.find? (fun o => o.tile == tile) = none → exec (.tileOpExecute w tile) s = .next s) ∧
    ∀ o, x.tileOps.find? (fun o => o.tile == tile) = some o →
      (writesTile o.instr = true → ∀ (bs : List Byte) (u : State), tileGot s w x o = (some bs, u) →
        ∃ y, exec (.tileOpExecute w tile) s = .next (u.setWarp w y) ∧ y = { tileLess x o with tiles := y.tiles } ∧
          (∀ i j, i < 32 → j < 64 →
            tileAt y tile i j = if o.mask.getLsbD i then tileWord (s.slots w) x o bs i j else tileAt x tile i j) ∧
          ∀ t i j, t ≠ tile → i < 32 → j < 64 → tileAt y t i j = tileAt x t i j) ∧
      (∀ u, tileGot s w x o = (none, u) → exec (.tileOpExecute w tile) s = .next u) ∧
      (∀ g d q, o.instr = .mrd g d tile q → d.field + 16 ≤ 768 → ∃ y,
        exec (.tileOpExecute w tile) s = .next ((s.setWarp w y).freeBank w) ∧
        y = { tileLess x o with regs := y.regs, pend := y.pend } ∧
        (∀ k < 16, if amFind x.pend (d.field + k) = some o.id then
            amFind y.pend (d.field + k) = none ∧ ∀ i < 32, (y.reg (d.field + k)).at i =
              if o.mask.getLsbD i then tileAt x tile i (16 * q + k) else (x.reg (d.field + k)).at i
          else y.reg (d.field + k) = x.reg (d.field + k) ∧ amFind y.pend (d.field + k) = amFind x.pend (d.field + k)) ∧
        ∀ n, n < d.field ∨ d.field + 16 ≤ n → y.reg n = x.reg n ∧ amFind y.pend n = amFind x.pend n) ∧
      (∀ g cvt k a, o.instr = .mst g tile false cvt k a → (∀ l ∈ x.loads, l.id < o.id → State.loadBound l = true) →
        State.queryOpen x o.id = false → State.tileReads x o.id = false → (∀ q ∈ x.stores, q.id < o.id → q.todo = 0) →
        (∀ p ∈ State.pagesOf o.addr o.len, s.pageReady w.team p x.core = true) →
        exec (.tileOpExecute w tile) s = .next ((((laneList o.mask).foldl (fun s i => s.scrPatch w.team
          ((storedRow (s.slots w) x tile cvt k i).mapIdx fun j b => (o.addr + i * storedLen (s.slots w) cvt k + j, b))) s).dropSbd w
            o.id).setWarp w (tileLess x o)))
/-! ### Group 7: sketches -/

/-- Sketch operations of lanes (R332 to R337, R339). The checks of a lane, in order: alignment of its handle (0x13), its
translation, a local page of TYPE 00 (0x21), a region not being changed and a key not being loaded, the descriptor (0x21), the operation (0x20), determinism
(0x50). With every active lane past them the instruction retires, its registers pending, `sk` one higher and the lines that it
will write in its signatures; no register and no counter has changed yet. `SKHASH` writes the chained hash of its key. -/
def Obligations.SketchesIssue : Prop :=
  (∀ (s : State) (w : WarpId) (k h : Nat) (act : SkDo) (v wt : Nat) (wm : Bool),
    (h % 64 ≠ 0 → s.skLane w k h act v wt wm = (.fail 0x13 h, s)) ∧
    (h % 64 = 0 →
      (∀ (code : Nat) (u : State), s.xlate (s.coreOf w) (s.ctxOf w.team) h .load = (.fail code, u) →
        s.skLane w k h act v wt wm = (.fail code h, u)) ∧
      ∀ (e : Tlb) (u : State), s.xlate (s.coreOf w) (s.ctxOf w.team) h .load = (.ok e, u) →
        (pteType e.leaf ≠ 0 → s.skLane w k h act v wt wm = (.fail 0x21 h, u)) ∧
        ∀ pa key cls, State.locOf e h = .mem pa key cls →
          (u.regionBusy pa = true ∨ u.keyWaits key = true → s.skLane w k h act v wt wm = (.hold, u)) ∧
          (u.regionBusy pa = false → u.keyWaits key = false → ∀ (l : List Byte) (t : State), u.descRead (u.coreOf w) pa key cls = (l, t) →
            let det := ∃ gi g, t.gridOf? w.team = some (gi, g) ∧ g.det = true
            let noDet := act = .del ∨ (act = .ins ∧ dType l = 1 ∧ dCons l = true)
            (descOk l = false → s.skLane w k h act v wt wm = (.fail 0x21 h, t)) ∧
            (descOk l = true → (∃ j, act = .stat j) →
              s.skLane w k h act v wt wm = (.sk (lanePassed k h pa key cls l act 0 0 1 []), t)) ∧
            (descOk l = true → (∀ j, act ≠ .stat j) →
              (skSupports l act = false ∨ (wm = true ∧ dType l ≠ 1) → s.skLane w k h act v wt wm = (.fail 0x20 h, t)) ∧
              (skSupports l act = true → (wm = true → dType l = 1) →
                ((det ∨ dDet l = true) → noDet → s.skLane w k h act v wt wm = (.fail 0x50 h, t)) ∧
                (¬ ((det ∨ dDet l = true) ∧ noDet) → ∀ (cols : List Loc) (z : State),
                  t.touchPages w (dCbase l) (skTouch l act v) = (.ok cols, z) →
                  s.skLane w k h act v wt wm =
                    (.sk (lanePassed k h pa key cls l act v wt (skSteps l act v) cols), z))))))) ∧
  (∀ (s u : State) (w : WarpId) (x : Warp) (c : Cursor) (i : Instr) (f : SkForm) (l : List (Nat × LaneRes)),
    skForm x i = some f → Oldest s w x c i → Fresh x →
    let m := activeMask x c i
    m ≠ 0 →
    (s.dispatched w x c i).laneChecks m (fun k t => t.skLane w k (f.handle k) f.act (f.key k) (f.wt k) f.weighted) = (l, u) →
    (allPass l = true → exec i s = .next ((u.setWarp w
      { hasSketched u.fab.fid (x.past c s.clock) (skLeft (lawOf u w) x c i f (skLanes l)) with
        pend := pending x.pend (f.dst ++ f.st) x.seq }).endClause w)) ∧
    ∀ k code a, doneLanes l = 0 →
      (l.filterMap fun r => match r.2 with | .fail code a => some (r.1, code, a) | _ => none).head? = some (k, code, a) →
      exec i s = .next (trapsWith u w x c m { Trap.at code m a with lane := k })) ∧
  ∀ (s : State) (w : WarpId) (x : Warp) (c : Cursor) (g : Guard) (d a b : Pair) (n : Nat),
    Oldest s w x c (.skhash g d a b n) → activeMask x c (.skhash g d a b n) ≠ 0 →
    exec (.skhash g d a b n) s = .next ((s.setWarp w ((x.past c s.clock).writePair d.field
      (activeMask x c (.skhash g d a b n)) .general .general fun k => hashVal x a b n k)).endClause w)

/-- Changes of a region as a whole at issue (R146, R148, R311, R332, R338, R340): a bad handle raises its fault, a bad descriptor,
a region at the limit of a fold or regions that cannot be merged 0x21; a region being changed makes them wait. Past the checks of
the counter pages, those of a merge's source among them (R345), the instruction retires with its operation queued, busy where it
is published, and `sk` one higher. `SKINV` takes the descriptor that its handle names out of every descriptor cache of the
package, and makes no other check than the alignment of the handle. -/
def Obligations.RegionChanges : Prop :=
  (∀ (s : State) (w : WarpId) (x : Warp) (c : Cursor) (i : Instr) (h : Nat),
    Oldest s w x c i → Fresh x →
    let m := activeMask x c i
    let fold := ∃ g sc a, i = .skfold g sc a
    m ≠ 0 →
    ((∃ g sc a, (i = .skfold g sc a ∨ i = .skclr g sc a) ∧ h = (x.rd64 a ((lowest m).getD 0)).toNat)) →
    (∀ (code a : Nat) (u : State), (s.dispatched w x c i).handleCheck w h = (.inl (.fail code a), u) →
      exec i s = .next (trapsWith u w x c m (Trap.at code m a))) ∧
    ∀ (pa key cls : Nat) (u : State), (s.dispatched w x c i).handleCheck w h = (.inr (pa, key, cls), u) →
      (u.regionBusy pa = true ∨ u.keyWaits key = true → exec i s = .next (u.endClause w)) ∧
      (u.regionBusy pa = false → u.keyWaits key = false → ∀ (l : List Byte) (t : State), u.descRead x.core pa key cls = (l, t) →
        (descOk l = false ∨ (fold ∧ foldLimit l = true) → exec i s = .next (trapsWith t w x c m (Trap.at 0x21 m h))) ∧
        (descOk l = true → (fold → foldLimit l = false) → ∀ (ps : List (Loc × Nat)) (z : State),
          t.arrayCheck w l State.leafChanges true = (.ok ps, false, z) →
          exec i s = .next ((z.setWarp w (hasSketched z.fab.fid (x.past c s.clock)
            (changeLeft x c i m [lanePassed 0 h pa key cls l .card 0 0 0 []] 0 true))).endClause w)))) ∧
  (∀ (s : State) (w : WarpId) (x : Warp) (c : Cursor) (g : Guard) (a b : Pair) (sh : Option Scope),
    let i := Instr.skmrg g a b sh
    Oldest s w x c i → Fresh x →
    let m := activeMask x c i
    let hd := (x.rd64 a ((lowest m).getD 0)).toNat
    let hs := (x.rd64 b ((lowest m).getD 0)).toNat
    m ≠ 0 → ∀ (pa key cls : Nat) (u : State), (s.dispatched w x c i).handleCheck w hd = (.inr (pa, key, cls), u) →
      ∀ (src : List Byte) (pb kb cb : Nat) (v : State),
      mergeDesc u w (entryAt x c i) m hs = (.inr (src, .mem pb kb cb), v) →
      (v.regionBusy pa = true ∨ v.keyWaits key = true ∨ v.regionBusy pb = true → exec i s = .next (v.endClause w)) ∧
      (v.regionBusy pa = false → v.keyWaits key = false → v.regionBusy pb = false → ∀ (dst : List Byte) (t : State),
        v.descRead x.core pa key cls = (dst, t) →
        (descOk dst = false → exec i s = .next (trapsWith t w x c m (Trap.at 0x21 m hd))) ∧
        (descOk dst = true → descOk src = false → exec i s = .next (trapsWith t w x c m (Trap.at 0x21 m hs))) ∧
        (descOk dst = true → descOk src = true → mergeable dst src = false →
          exec i s = .next (trapsWith t w x c m (Trap.at 0x21 m hd))) ∧
        (descOk dst = true → descOk src = true → mergeable dst src = true → ∀ (ps qs : List (Loc × Nat)) (y z : State) (b' : Bool),
          t.arrayCheck w dst (if sh.isSome then State.leafChanges else State.leafCounts) sh.isSome = (.ok ps, false, y) →
          y.arrayCheck w src State.leafSource false = (.ok qs, b', z) →
          exec i s = .next (((z.inboxDrop w x.seq).setWarp w (hasSketched z.fab.fid (x.past c s.clock)
            (changeLeft x c i m [lanePassed 0 hd pa key cls dst .card 0 0 0 [],
                lanePassed 0 hs pb kb cb src .card 0 0 0 []] (csize dst / 64 + 1) sh.isSome))).endClause w)))) ∧
  ∀ (s : State) (w : WarpId) (x : Warp) (c : Cursor) (g : Guard) (a : Pair),
    let i := Instr.skinv g a
    Oldest s w x c i → Fresh x →
    let m := activeMask x c i
    let h := (x.rd64 a ((lowest m).getD 0)).toNat
    m ≠ 0 →
    (h % 64 ≠ 0 → exec i s = .next (trapsWith s w x c m (Trap.at 0x13 m h))) ∧
    (h % 64 = 0 → 2 ^ 57 ≤ h → exec i s = .next ((s.setWarp w (x.past c s.clock)).endClause w)) ∧
    (h % 64 = 0 → h < 2 ^ 57 → ∀ (r : Walk) (u : State), (s.dispatched w x c i).translate x.core (s.ctxOf w.team) h = (r, u) →
      ((∀ e, r ≠ .leaf e) → exec i s = .next ((u.setWarp w (x.past c s.clock)).endClause w)) ∧
      ∀ e, r = .leaf e →
        ((∀ pa key cls, State.locOf e h ≠ .mem pa key cls ∧ State.locOf e h ≠ .win pa key cls) →
          exec i s = .next ((u.setWarp w (x.past c s.clock)).endClause w)) ∧
        ∀ pa key cls, (State.locOf e h = .mem pa key cls ∨ State.locOf e h = .win pa key cls) →
          ∃ t, exec i s = .next (t.endClause w) ∧ t = ((u.setMem t.mem).setWarp w (x.past c s.clock)) ∧
            t.mem = { u.mem with cores := t.mem.cores } ∧
            ∀ k q, (t.core k).descCache = (u.core k).descCache.filter (fun e => e.1 % 2 ^ 46 != pa) ∧
              (q = t.core k → { q with descCache := (u.core k).descCache } = u.core k))

/-- One step of a sketch operation (R135, R333 to R336): a lane that may step does its next step at the home, the core's own dirty
bytes there first (R74) and its copies of what it wrote dropped (R160); where LAWF was set as it issued (R356), each counter that
the step found underflowing is to be reported (R414); when it has performed, its answer and its status word stand in the
operation, and with every lane performed and the instruction retired the registers still pending for it take them and `sk` falls.
An insert adds to N before its counters, a deletion takes from N after them. A report of an underflow reaches its warp once
(R414). -/
def Obligations.SketchEvents : Prop :=
  (∀ (s : State) (w : WarpId) (x : Warp) (id lane : Nat) (o : SkOp) (l : SkLane),
    s.warp? w = some x → x.skOps.find? (fun o => o.id == id) = some o → o.lanes.find? (fun l => l.lane == lane) = some l →
    State.wholeOp o.instr = false →
    (s.skHeld w.team x o l = true → l.done < l.steps → exec (.weigherUpdate w id lane) s = .next s) ∧
    (s.skHeld w.team x o l = false → l.done < l.steps → ∀ (l' : SkLane) (u : State),
      (s.skSync x.core l).skStep l l.act = (l', u) →
      let kept := { x with
        skOps := x.skOps.map fun (k : SkOp) => if k.id = id then
          { k with lanes := k.lanes.map fun q => if q.lane = lane then l' else q } else k
        lawDue := if o.lawf then x.lawDue ++ l'.low.map (fun a => (a, l.desc)) else x.lawDue }
      l'.done = l.done + 1 ∧
      (l'.done < l'.steps → exec (.weigherUpdate w id lane) s = .next ((u.skDrop x.core l).setWarp w kept)) ∧
      (l'.steps = l'.done →
        exec (.weigherUpdate w id lane) s = .next ((((u.skDrop x.core l).setWarp w kept).skLaneDone w o l').finishSk w id)))) ∧
  (∀ (s : State) (l : SkLane) (o : SkDo),
    (o = .ins → l.done = 0 → s.skStep l o = ({ l with done := 1, low := [] }, (s.bumpN l.dloc (if dType l.snap = 1 then l.wt else 1) true).2)) ∧
    (o = .del → l.done + 1 = skSteps l.snap o l.key → ((s.skStep l o).2 = (s.bumpN l.dloc (if dType l.snap = 1 then l.wt else 1) false).2)) ∧
    (∀ n t, s.descNat l.dloc 0x18 8 = (n, t) → (∀ wt, 0 < wt → s.bumpN l.dloc wt true = (Ev.none, t.descPut l.dloc 0x18 8
        (min (n + wt) (2 ^ 64 - 1)))) ∧
      ∀ wt, 0 < wt → wt ≤ n → s.bumpN l.dloc wt false = (Ev.none, t.descPut l.dloc 0x18 8 (n - wt)))) ∧
  (∀ c (delta : Int) cmax, c ≤ cmax →
    let r := counterUpdate c delta cmax
    (delta = 0 → r = (c, false, false)) ∧ (delta ≠ 0 → c = cmax → r = (cmax, true, false)) ∧
    (delta ≠ 0 → c < cmax → (r.1 : Int) = max 0 (min (cmax : Int) (c + delta)) ∧ (r.2.1 = true ↔ (cmax : Int) < c + delta) ∧
      (r.2.2 = true ↔ (c : Int) + delta < 0))) ∧
  (∀ (s : State) (w : WarpId) (x : Warp) (id : Nat) (o : SkOp), s.warp? w = some x →
    x.skOps.find? (fun o => o.id == id) = some o → o.retired = true → State.skDone o = true →
    (∀ l ∈ o.lanes, State.wholeOp o.instr = false →
      o.lanes.find? (fun q => q.lane == l.lane) = some l → (∀ g sp wd d a off, o.instr ≠ .ld g sp wd d a off) →
      (∀ g sp wd ofl d a off, o.instr ≠ .st g sp wd ofl d a off) →
      exec (.weigherUpdate w id l.lane) s =
        .next ((s.setWarp w (skLess (State.commitRegs x id (o.dsts.zip o.vals ++ o.stDst.zip o.stVal)) id)).freeBank w))) ∧
  (∀ (s : State) (w : WarpId) (x : Warp) (a d : Nat), s.warp? w = some x →
    ((a, d) ∉ x.lawDue → exec (.lawLostReport w a d) s = .next (s.setWarp w x)) ∧
    ((a, d) ∈ x.lawDue → exec (.lawLostReport w a d) s = .next (s.setWarp w { x with
      lawDue := x.lawDue.erase (a, d)
      lawLost := if x.status = .exited ∨ x.status = .saved ∨ x.lawLost.isSome = true then x.lawLost else some (a, d) })))

/-- Merging and publishing a region (R146, R148, R149, R338). A unit of a merge in place whose source line is local: the
destination's 64 bytes become the merge of both, and the operation stands at its next unit. A published change, its units merged
and the region quiet, releases at its scope, turns every leaf of the counter array over to its twin, raises GEN, and leaves the
queue, `sk` falling. -/
def Obligations.RegionEvents : Prop :=
  (∀ (s u : State) (w : WarpId) (x : Warp) (id : Nat) (o : SkOp) (d q : SkLane) (bs : List Byte),
    s.warp? w = some x → x.skOps.find? (fun o => o.id == id) = some o → o.lanes = [d, q] →
    State.mergeShared o.instr = false →
    let waits := o.retired = false ∨ o.paused ≠ [] ∨ (∃ e ∈ x.window, e.seq = id) ∨ o.total ≤ o.units ∨
      (∃ k ∈ x.loads, k.id < id ∧ k.acq ≠ none ∧ State.loadBound k = false) ∨
      ∃ k ∈ x.skOps, k.id < id ∧ ∃ l ∈ k.lanes, skOpen l = true ∧ updates l.act = false ∧ State.sameRegion l.dloc d.dloc = true
    let va := (dCbase q.snap + 64 * o.units) % 2 ^ 64
    (waits → exec (.mergeUnit w id o.units) s = .next s) ∧
    (∀ n, n ≠ o.units → exec (.mergeUnit w id n) s = .next s) ∧
    (¬ waits → o.units + 1 < o.total → s.mergeSource w x o q.dloc (dHome q.snap) va 64 = (some bs, u) →
      exec (.mergeUnit w id o.units) s = .next (u.mergeApply w id bs)) ∧
    (¬ waits → o.units + 1 = o.total → s.mergeSource w x o q.dloc 0 q.desc 64 = (some bs, u) →
      exec (.mergeUnit w id o.units) s = .next (u.mergeApply w id bs))) ∧
  (∀ (s u v : State) (w : WarpId) (x : Warp) (id : Nat) (o : SkOp) (d q : SkLane) (bs old : List Byte) (pa key cls : Nat),
    s.warp? w = some x → x.skOps.find? (fun o => o.id == id) = some o → o.lanes = [d, q] →
    State.mergeShared o.instr = false → o.units + 1 < o.total →
    State.memAny d.dloc (fun p k => s.homeHeld p k || s.syncHeld x.core p k) = false →
    (s.skSync x.core { d with cols := [] }).mergePlace w o ((dCbase d.snap + 64 * o.units) % 2 ^ 64) false =
      (some (.mem pa key cls), u) →
    u.homeHeld pa key = false → u.mergeWaits w x o d.dloc (.mem pa key cls, 64) = false →
    (u.l1Sync x.core pa key 64).weighRead (dHome d.snap) pa key cls 64 = (old, v) →
    let r := mergeBytes d.snap old bs
    ∃ t, s.mergeApply w id bs = t ∧
      (t.warp? w).map Warp.skOps = some (x.skOps.map fun (k : SkOp) => if k.id = id then { k with units := k.units + 1, lanes := [d, q] } else k) ∧
      t.mem = ((((v.weighWrite (dHome d.snap) pa key cls r.1).noteWrite w (.mem pa key cls) 64).recordEv d.dloc r.2)).mem) ∧
  ∀ (s u z : State) (w : WarpId) (x : Warp) (id : Nat) (o : SkOp) (d : SkLane) (sc : Scope) (ls : List (Nat × Option Tlb)),
    s.warp? w = some x → x.skOps.find? (fun o => o.id == id) = some o → o.lanes.head? = some d →
    State.changeScope o.instr = some sc →
    let waits := o.retired = false ∨ o.busy = false ∨ (∃ e ∈ x.window, e.seq = id) ∨ o.units < o.total ∨
      s.regionQuiet w id d.dloc = false ∨ s.olderDone w x id sc = false ∨ ∃ pa k cl, d.dloc = .mem pa k cl ∧ s.homeHeld pa k = true
    (waits → exec (.regionPublish w id) s = .next s) ∧
    (¬ waits → s.arrayLeaves w d.snap = (ls, u) → u.openLeaves w.team (State.leavesOf ls) = (false, z) →
      exec (.regionPublish w id) s = .next z) ∧
    (¬ waits → (∃ g sc a, o.instr = .skclr g sc a) → s.arrayLeaves w d.snap = (ls, u) →
      u.openLeaves w.team (State.leavesOf ls) = (true, z) →
      let l := State.leavesOf (z.arrayLeaves w d.snap).1
      let z := (z.arrayLeaves w d.snap).2
      (∀ e ∈ l, z.publishHeld (z.partOf w.team) e = false) →
      exec (.regionPublish w id) s = .next ((((l.foldl (fun s e => s.publishLeaf e)
        ((z.arrayWrite w d.snap l (List.replicate (csize d.snap) 0)).release w sc).2).newFields o d Ev.none).dropDescs d.dloc).modWarp
          w fun x => skLess x id))
/-! ### Dispatch and the window -/

/-- The dispatch of a clause (R54, R63 to R65, R223 to R225). Which entry a frontier gives up: one passed over 64 times, the
lowest, else the lowest of the highest priority among those that need not wait to rejoin. A header's wait fields keep its warp
from a port. The lowest free port goes to a ready warp that no ready warp of the core beats; the others count one more auction
lost; the winner stands before its first instruction and acts, or takes the fault of its selection. With no port or no ready warp
nothing happens. -/
def Obligations.ClauseDispatch : Prop :=
  (∀ (fr : List FEntry), fr ≠ [] → ∃ e ∈ fr, selectEntry fr = some e ∧
    let left := fr.filter fun d => !(d.rejoin && fr.any fun q => q.addr < d.addr && !q.rejoin)
    ((∃ d ∈ fr, 64 ≤ d.passes) → 64 ≤ e.passes ∧ ∀ d ∈ fr, 64 ≤ d.passes → e.addr ≤ d.addr) ∧
    ((∀ d ∈ fr, d.passes < 64) → e ∈ left ∧ ∀ d ∈ left, d.prio ≤ e.prio ∧ (d.prio = e.prio → e.addr ≤ d.addr))) ∧
  (∀ (s u : State) (w : WarpId) (x : Warp) (e : FEntry) (h : DWord) (k : Ctr), x.cursor = none → selectEntry x.fr = some e →
    s.fetchAt w e.addr = (.word h, u) → hdrWait h k ≠ 63 → hdrWait h k < x.ctr.get k → s.isReady w x = false) ∧
  (∀ (s : State) (l : List (WarpId × Warp)), l ≠ [] → ∃ e ∈ l, s.winner l = some e ∧ ∀ d ∈ l, s.wins d e = false) ∧
  ∀ (s : State) (core : Nat), amSorted s.warps = true →
    (readyOn s core = [] → exec (.clauseDispatch core) s = .next s) ∧
    ((∀ p < 4, ∃ e ∈ s.warpsOn core, e.2.port = some p) → exec (.clauseDispatch core) s = .next s) ∧
    ∀ (w : WarpId) (x : Warp) (port : Nat) (u : State) (r : Sel),
      port < 4 → (∀ e ∈ s.warpsOn core, e.2.port ≠ some port) → (∀ p < port, ∃ e ∈ s.warpsOn core, e.2.port = some p) →
      s.winner (readyOn s core) = some (w, x) → s.readySel w x = (some r, u) →
      ∃ t : State, (∀ (v : WarpId) y, v.widx < 64 → v ≠ w → u.warp? v = some y → t.warp? v = some
          (if v ∈ (readyOn s core).map (·.1) ∧ y.fairAt ≠ some u.clock then { y with fair := y.fair + 1, fairAt := some u.clock }
           else y)) ∧ t = { u with warps := t.warps } ∧
        (∀ c, r = .clause c → exec (.clauseDispatch core) s = .next (((t.setWarp w { x with
          fair := 0
          readySince := none
          cursor := some c
          port := some port
          fr := match x.cursor, selectEntry x.fr with
            | none, some e => (x.fr.filter fun d => d.addr != e.addr).map fun d => { d with passes := min 64 (d.passes + 1) }
            | _, _ => x.fr }).setCur (some w)).endClause w)) ∧
        (r = .safe → exec (.clauseDispatch core) s =
          .next (t.setWarp w { x with fair := 0, readySince := none, status := .yielded, wdHeld := some (u.clock - x.lastRetire) })) ∧
        (∀ word tr, r = .trap word tr → exec (.clauseDispatch core) s = .next ((t.setWarp w { x with
            fair := 0
            readySince := none
            lawLost := if tr.code = 0x22 then none else x.lawLost }).takeTrap w countersOf
          (State.selPos { x with fair := 0, readySince := none } word false) tr))

/-- The window (R69 to R74, R83). An instruction completes in it before it is the oldest, in some of its lanes or in all: a
register operation behind older results leaves its own results in its entry, changing no register, and its other lanes complete
later; an operand still missing, an older acquire ahead of a load, or a destination in handler state leaves everything as it is.
The oldest entry retires with its results written, or with its load counted as retired, or executes once its operands are ready. -/
def Obligations.WindowEvents : Prop :=
  (∀ (s : State) (w : WarpId) (x : Warp) (k : Nat) (e : WEntry) (on : Mask), s.warp? w = some x →
    x.window.find? (fun e => e.seq == k) = some e →
    let older := x.window.filter fun f => f.seq < k
    let v := State.viewOf x older
    let m := e.mask &&& v.guardMask (guardOf e.instr)
    (e.result ≠ .none → exec (.laneComplete w (k, on)) s = .next (s.setWarp w { x with
      window := x.window.map fun (f : WEntry) => if f.seq = k then { f with left := f.left &&& ~~~on } else f })) ∧
    (e.result = .none → (earlyKind e.instr = false ∨ s.opsReady w x older e.instr e.mask = false ∨
        (passes e.instr = true ∧ ∃ f ∈ older, holdsLoads f.instr = true) ∨
        ∃ n ∈ runNames (writeRuns (s.slots w) e.instr), 960 ≤ n) →
      exec (.laneComplete w (k, on)) s = .next s) ∧
    (e.result = .none → s.opsReady w x older e.instr e.mask = true → m &&& on ≠ 0 →
      (m &&& ~~~on = 0 ∨ ∀ n ∈ runNames (writeRuns (s.slots w) e.instr), s.regReady w x older n = true) →
      ∀ (s2 : State) (B : List VReg) (outs : List RegOut), (encode e.instr).isSome →
      (∀ n ∈ runNames (writeRuns (s.slots w) e.instr), n < 960) →
      readB (s.setWarp w { v with window := [] }) w { v with window := [] } e.instr = (some B, s2) →
      (integerOuts v m B e.instr = some outs ∨ crossOuts v m B e.instr = some outs) →
      (s.slots w = s2.slots w ∧ (∀ o ∈ x.loads, o.id ≠ k) ∧ ∀ o ∈ x.skOps, o.id ≠ k) →
      exec (.laneComplete w (k, on)) s = .next (s2.setWarp w (withResult x k
        (.alu ((runNames (writeRuns (s.slots w) e.instr)).map fun n => (n, (v.writeAll m outs).reg n)) []) (m &&& ~~~on))))) ∧
  (∀ (s : State) (w : WarpId) (x : Warp), s.warp? w = some x →
    (x.window = [] → exec (.instructionRetire w) s = .next (s.endClause w)) ∧
    ∀ (e : WEntry) (l : List WEntry), x.window = e :: l → x.cursor ≠ none →
      (∀ rs ps, e.result = .alu rs ps → exec (.instructionRetire w) s = .next ((s.setWarp w
        { popped (written x rs ps) s.clock with ctr := x.ctr.lower (countersOf e.instr) }).endClause w)) ∧
      (∀ o, e.result = .load → x.loads.find? (fun o => o.id == e.seq) = some o → (∀ q ∈ x.skOps, q.id ≠ e.seq) →
        countersOf e.instr = [.ld] →
        let y := { popped x s.clock with pend := pending x.pend ((o.dsts.zip o.vals).map (·.1)) e.seq }
        (State.loadBound o = false → exec (.instructionRetire w) s =
          .next ((s.setWarp w (withLoad y e.seq fun _ => loadRetired y o)).endClause w)) ∧
        (State.loadBound o = true →
          exec (.instructionRetire w) s = .next ((s.setWarp w (loadDone y (loadRetired y o))).endClause w))) ∧
      (e.result = .none → s.opsReady w x [] e.instr e.mask = false →
        exec (.instructionRetire w) s = .next (s.endClause w)) ∧
      (∀ b, e.result = .none → headBody e.instr = some b → s.opsReady w x [] e.instr e.mask = true →
        exec (.instructionRetire w) s = .next ((s.runHead w e b).endClause w)))
/-! ### Loads and stores as they perform -/

/-- Loads bind and stores perform (R73 to R75, R81, R82, R120, R158, R162, R232, R294, R298). A lane of a plain load takes the
bytes of its core's L1; with every lane bound `ld` falls, and once the load has retired its registers take the values, a handler
bank that waited for it being freed. A plain store of a
retired instruction writes its core's L1, an atomic its line's home, the old value going back to its lane; what is older and open
holds them. A store with every lane performed and nothing unacknowledged leaves, and `st` falls. -/
def Obligations.LoadAndStoreEvents : Prop :=
  (∀ (s u : State) (w : WarpId) (x : Warp) (l : LoadOp) (i : Nat) (a : Acc) (pa key cls : Nat) (bs : List Byte),
    s.warp? w = some x → x.loads.find? (fun k => k.id == l.id) = some l → ClearBefore x l.id → (∀ o ∈ x.stores, o.id ≠ l.id) →
    s.skWriting w.team x l.id a = false →
    l.acq = none → i < 32 → l.need.getLsbD i = true → l.bound.getLsbD i = false →
    (l.accs.filter fun a => a.lane == i) = [a] → a.loc = .mem pa key cls → s.fillHeld x.core pa key a.len = false → s.l1Read x.core pa key cls a.len = (bs, u) →
    let l' := boundLane l i bs
    let y := withLoad x l.id fun (k : LoadOp) => boundLane k i bs
    (l'.bound ≠ l.need ∨ (l.retired = false ∧ ∀ e ∈ x.window, e.seq = l.id → e.result ≠ .load) →
      exec (.loadBind w l.id (laneBit i)) s = .next (u.setWarp w y)) ∧
    (l'.bound = l.need → l.retired = false → (∃ e ∈ x.window, e.seq = l.id ∧ e.result = .load) →
      exec (.loadBind w l.id (laneBit i)) s = .next (u.setWarp w
        { withLoad y l.id (fun (k : LoadOp) => { k with fallen := true }) with ctr := ldFallen l x.ctr })) ∧
    (l'.bound = l.need → l.retired = true →
      exec (.loadBind w l.id (laneBit i)) s = .next ((u.setWarp w (loadDone y l')).freeBank w))) ∧
  (∀ (s : State) (w : WarpId) (x : Warp) (l k : LoadOp) (i : Nat) (a b : Acc), s.warp? w = some x →
    x.loads.find? (fun k => k.id == l.id) = some l → (l.accs.filter fun a => a.lane == i) = [a] → i < 32 →
    k ∈ x.loads → k.id < l.id → State.loadBound k = false → State.loadBound l = false →
    (k.acq ≠ none ∨ (b ∈ k.accs ∧ k.bound.getLsbD b.lane = false ∧ s.overlap w.team a b = true)) →
    exec (.loadBind w l.id (laneBit i)) s = .next s) ∧
  (∀ (s : State) (w : WarpId) (x : Warp) (o : StoreOp) (i : Nat) (q : StAcc) (pa key cls : Nat),
    s.warp? w = some x → x.stores.find? (fun k => k.id == o.id) = some o → i < 32 → o.todo.getLsbD i = true →
    ((∃ e ∈ x.window, e.seq = o.id) ∨ (∃ l ∈ x.loads, l.id < o.id ∧ State.loadBound l = false) →
      exec (.storePerform w o.id (laneBit i)) s = .next s) ∧
    ((∀ e ∈ x.window, e.seq ≠ o.id) → ClearBefore x o.id → State.queryOpen x o.id = false → x.tileOps = [] →
      o.rel = none → o.acq = none → (o.accs.filter fun q => q.acc.lane == i) = [q] → q.acc.loc = .mem pa key cls →
      s.skWriting w.team x o.id q.acc = false →
      ((o.kind = .plain ∨ o.kind = .ordered) → s.fillHeld x.core pa key q.acc.len = false → (∀ l ∈ x.loads, l.id ≠ o.id) → ∀ u : State,
        s.l1Room x.core (lineName s.fab.fid pa) key = some u →
        exec (.storePerform w o.id (laneBit i)) s =
          .next (((u.l1Store x.core pa key cls q.bytes).setWarp w (storedLanes x o.id (laneBit i) 1)).closeExited w)) ∧
      (∀ op, o.kind = .red op → s.homeHeld pa key = false → (∀ l ∈ x.loads, l.id ≠ o.id) →
        (∀ r ∈ o.accs, r.acc.loc = q.acc.loc → r = q) → ∀ (bs : List Byte) (u : State),
        s.coreHomeRead x.core pa key cls q.acc.len = (bs, u) →
        exec (.storePerform w o.id (laneBit i)) s = .next (((u.coreHomeWrite x.core pa key cls
          ((leBytes q.acc.len (State.atomResult op (q.acc.len == 8) (leNat bs) q.opnd)).mapIdx fun k b => (k, b))).setWarp w
            (storedLanes x o.id (laneBit i) 1)).closeExited w)) ∧
      (∀ op l, o.kind = .atom op → s.homeHeld pa key = false → x.loads.find? (fun k => k.id == o.id) = some l →
        l.acq = none → (l.bound ||| laneBit i ≠ l.need ∨ l.retired = false) →
        (∀ r ∈ o.accs, r.acc.loc = q.acc.loc → r = q) → ∀ (bs : List Byte) (u : State),
        s.coreHomeRead x.core pa key cls q.acc.len = (bs, u) → bs.length = q.acc.len →
        exec (.storePerform w o.id (laneBit i)) s = .next (((u.coreHomeWrite x.core pa key cls
          ((leBytes q.acc.len (State.atomResult op (q.acc.len == 8) (leNat bs) q.opnd)).mapIdx fun k b => (k, b))).setWarp w
            (storedLanes (withLoad x o.id fun (k : LoadOp) => boundLane k i bs) o.id (laneBit i) 1)).closeExited w)))) ∧
  (∀ (s : State) (w : WarpId) (x : Warp) (o : StoreOp), s.warp? w = some x → x.stores.find? (fun k => k.id == o.id) = some o →
    let waits := (∃ r ∈ s.fab.reqs, r.owner = .store w o.id) ∨ (∃ k ∈ x.skOps, k.id = o.id) ∨ ∃ e ∈ x.window, e.seq = o.id
    (o.todo ≠ 0 → exec (.writeAcknowledged w o.id) s = .next s) ∧
    (o.todo = 0 → waits → exec (.writeAcknowledged w o.id) s = .next (s.setWarp w { x with
      stores := x.stores.map fun (k : StoreOp) => if k.id = o.id then { k with acks := 0 } else k })) ∧
    (o.todo = 0 → ¬ waits → exec (.writeAcknowledged w o.id) s = .next (s.setWarp w { x with
      stores := x.stores.filter fun (k : StoreOp) => k.id != o.id
      ctr := { x.ctr with st := x.ctr.st - 1 } }))) ∧
  (∀ (p q : Word), let r := fun (op : AtomOp) => BitVec.ofNat 32 (State.atomResult op false p.toNat q.toNat)
    r .add = p + q ∧ r .inc = p + 1 ∧ r .and = p &&& q ∧ r .or = p ||| q ∧ r .xor = p ^^^ q ∧ r .exch = q ∧
    r .smin = (if p.sle q then p else q) ∧ r .smax = (if p.sle q then q else p) ∧
    r .umin = (if p.ule q then p else q) ∧ r .umax = (if p.ule q then q else p)) ∧
  (∀ (p q : DWord), let r := fun (op : AtomOp) => BitVec.ofNat 64 (State.atomResult op true p.toNat q.toNat)
    r .add = p + q ∧ r .inc = p + 1 ∧ r .smin = (if p.sle q then p else q) ∧ r .umax = (if p.ule q then q else p))

/-- Caches and scratch on their own (R110, R158, R163, R167, R348, R364, R407): each of these rows completes in every state. A dirty
sector written back stands clean in the L1 and at its home, byte for byte, where the line has a home and no copy of it is
stranded (R125) or tagged with another key (R128); the periodic invalidation keeps the dirty words alone; the signature of evictions clears 2^21 cycles after the
last; a miss that its team no longer wants is dropped, one that is served leaves the queue and what waits for its page is
replayed, one that finds no frame stays; a fill whose slice has lost its line's home is routed to the home of now; a page of an
armed set gets its twin. -/
def Obligations.CacheEvents : Prop :=
  (∀ (s : State) (c line key sector : Nat),
    (s.l1Find c line key = none → exec (.l1WritebackTimer c line key sector) s = .next s) ∧
    ∀ e, s.l1Find c line key = some e →
      ((∀ o ∈ e.dirty, o / 32 ≠ sector) ∨ s.writeHeld (e.line % 2 ^ 33 * 128) = true →
        exec (.l1WritebackTimer c line key sector) s = .next s) ∧
      ((∃ o ∈ e.dirty, o / 32 = sector) → s.writeHeld (e.line % 2 ^ 33 * 128) = false → e.bytes ≠ [] →
        ∃ t, exec (.l1WritebackTimer c line key sector) s = .next t ∧ t.warps = s.warps ∧ t.fab = s.fab ∧
          t.l1Find c line key = some { e with dirty := e.dirty.filter fun o => o / 32 != sector
                                              since := e.since.filter fun q => q.1 != sector } ∧
          (hasHome (e.line % 2 ^ 33 * 128) = true → s.strandsOf (e.line % 2 ^ 33) e.key = [] →
            (∀ d ∈ s.mem.l2, d.line = e.line % 2 ^ 33 → d.key = e.key) → s.mem.hbm.wf = true → amSorted s.mem.stamps = true →
            ∀ o b, o ∈ e.dirty → o / 32 = sector → o < 128 → (e.bytes.filter fun q => q.1 == o) = [(o, b)] →
            (t.homeRead (e.line % 2 ^ 33 * 128 + o) e.key e.cls 1).1 = [b]))) ∧
  (∀ (s : State) (c : Nat), ∃ t, exec (.l1PeriodicInvalidate c) s = .next t ∧ t.warps = s.warps ∧ t.mem.l2 = s.mem.l2 ∧
    t.mem.hbm = s.mem.hbm ∧ (t.core c).lastInval = s.clock ∧
    (∀ k, k ≠ c → t.core k = s.core k) ∧ ∀ e ∈ (t.core c).l1, ∃ d ∈ (s.core c).l1, e.line = d.line ∧ e.key = d.key ∧
      e.dirty = d.dirty ∧ ∀ b, b ∈ e.bytes ↔ b ∈ d.bytes ∧ ∃ o ∈ d.dirty, o / 4 = b.1 / 4) ∧
  (∀ (s : State) (k : Nat), let st := amGet SigStore.empty s.mem.l2sig k
    (s.clock < st.lastEvict + 2 ^ 21 → exec (.overflowSignatureClear k) s = .next s) ∧
    (st.lastEvict + 2 ^ 21 ≤ s.clock → exec (.overflowSignatureClear k) s =
      .next (s.setMem { s.mem with l2sig := amPut SigStore.empty s.mem.l2sig k { st with ovf := 0, base := 0 } }))) ∧
  (∀ (s : State) (cl : Nat), (amGet [] s.mem.misses cl = [] → exec (.porterServe cl) s = .next s) ∧
    ∀ m l, amGet [] s.mem.misses cl = m :: l →
      let rest := fun (t : State) => t.setMem { t.mem with misses := amPut [] t.mem.misses cl l }
      ((∀ t, s.team? m.team = some t → t.status ≠ .placed ∧ t.status ≠ .yielding ∧ t.status ≠ .saving) →
        exec (.porterServe cl) s = .next (rest s)) ∧
      ((∃ t, s.team? m.team = some t ∧ t.status = .placed) →
        (∀ (t : State) (b : Bool), s.porterServe m.team m.page m.core = (some t, b) →
          exec (.porterServe cl) s = .next (m.waits.foldl (fun (t : State) k => t.replay ⟨m.team, k.1⟩ k.2) (rest t))) ∧
        (s.porterServe m.team m.page m.core = (none, false) → exec (.porterServe cl) s = .next s))) ∧
  (∀ (s : State) (k : Nat), (s.mem.fills[k]? = none → exec (.fillReroute k) s = .next s) ∧
    ∀ f, s.mem.fills[k]? = some f → exec (.fillReroute k) s =
      .next (if s.mem.l2Home (f.line * 128) = f.slice ∧ f.lost = false then s else s.setMem { s.mem with
        fills := s.mem.fills.set k { f with slice := s.mem.l2Home (f.line * 128), lost := false } })) ∧
  (∀ (s : State) (p k : Nat) (g : SnPage), (s.part p).snap.pages.find? (fun g => g.k == k) = some g →
    let armed := (s.part p).snap.state = 2 ∧ g.drained = false ∧ g.early = false ∧ g.twin = none
    (¬ armed → exec (.cowTwinCopy p k) s = .next s) ∧
    (armed → (∀ f ∈ (s.part p).twins, s.frameBusy f = true) → exec (.cowTwinCopy p k) s = .next s) ∧
    (armed → ∀ f, (s.part p).twins.find? (fun f => !s.frameBusy f) = some f →
      ∃ t, exec (.cowTwinCopy p k) s = .next t ∧ t.warps = s.warps ∧
        (t.part p).twins = (s.part p).twins.filter (fun q => q != f) ∧
        (t.part p).snap.pages = (s.part p).snap.pages.map fun (q : SnPage) =>
          if q.k = k then { q with twin := some f, order := (s.part p).snap.twins } else q))
/-! ### Engine operations and launch queues -/

/-- A local copy transfers (R303): it waits for its window entry, its page and the warp's older acquires; then it reads on from
where it stands, a piece that an older write of the warp is to change waiting for it, and only with every source byte read does it
write a destination byte; a source or destination piece that is not to be had stops it there. A copy with every packet answered
lands and frees its scoreboard entry, a `GET` raises its counter (R304), a message lowers `st` (R188). -/
def Obligations.EngineEvents : Prop :=
  (∀ (s : State) (w : WarpId) (x : Warp) (o : CopyOp), s.warp? w = some x →
    x.copies.find? (fun c => c.id == o.id) = some o →
    (o.stage ≠ .issued ∨ o.paused ≠ [] ∨ (∃ e ∈ x.window, e.seq = o.id) ∨ (∃ l ∈ x.loads, l.id < o.id ∧ l.acq ≠ none) →
      exec (.copyTransfer w o.id) s = .next s) ∧
    (MayRead x o → o.kind = .copy →
      let src := State.cutsOf (o.rows.map fun r => (r.src, r.len))
      let dst := State.cutsOf (o.rows.map fun r => (r.dst, r.len))
      let n := (o.rows.map CopyRow.len).sum
      ∀ (e : Eng) (got : List Byte) (u : State),
        State.readPieces w x o.id o.ss (State.skipBytes o.got.length src) o.got s = (e, got, u) →
        let u1 := u.modCopy w o.id fun c => { c with got := got }
        (got.length < n → exec (.copyTransfer w o.id) s = .next (u1.copyStop w o false e)) ∧
        (n ≤ got.length → ∀ (f : Eng) (put : Nat) (v : State),
          State.writePieces w o.id o.ds (State.skipBytes o.put dst) (got.drop o.put) o.put u1 = (f, put, v) →
          (put < n → exec (.copyTransfer w o.id) s = .next
            ((v.modCopy w o.id fun c => { c with put := put }).copyStop w o true f)) ∧
          (n ≤ put → exec (.copyTransfer w o.id) s = .next (v.modCopy w o.id fun c =>
            { c with stage := .moved, rows := [], got := [], put := put }))))) ∧
  (∀ (s u v : State) (w : WarpId) (x : Warp) (id : Nat) (sp : Space) (a n : Nat) (l : List (Nat × Nat)) (got bs : List Byte)
      (p : List (Loc × Nat)), s.engRange w id sp a n false none = (.ok p, u) →
    ((∃ q ∈ p, u.olderWrite x w id q = true) → State.readPieces w x id sp ((a, n) :: l) got s = (.hold, got, u)) ∧
    ((∀ q ∈ p, u.olderWrite x w id q = false) → u.engGets w p = (bs, v) →
      State.readPieces w x id sp ((a, n) :: l) got s = State.readPieces w x id sp l (got ++ bs) v)) ∧
  (∀ (s : State) (w : WarpId) (x : Warp) (o : CopyOp), s.warp? w = some x →
    x.copies.find? (fun c => c.id == o.id) = some o → (∀ a ∈ s.fab.armed, a.due = false) →
    let waits := o.stage ≠ .moved ∨ ∃ r ∈ s.fab.reqs, r.owner = .copy w o.id
    let landed := (s.setWarp w { x with copies := x.copies.map fun (c : CopyOp) =>
      if c.id = o.id then { c with stage := .landed } else c }).dropSbd w o.id
    (waits → exec (.copyLand w o.id) s = .next s) ∧
    (¬ waits → (o.kind = .copy ∨ (o.kind = .get ∧ o.ntf = none) ∨ (o.kind = .put ∧ o.ntf = none) ∨ ∃ a b c, o.kind = .mcast a b c) →
      exec (.copyLand w o.id) s = .next landed) ∧
    (∀ k, ¬ waits → o.kind = .get → o.ntf = some k → exec (.copyLand w o.id) s = .next (landed.trigAdd k 1 none)) ∧
    (∀ a b c, ¬ waits → o.kind = .send a b c → exec (.copyLand w o.id) s = .next (s.setWarp w { x with
      copies := x.copies.filter fun (c : CopyOp) => c.id != o.id
      ctr := { x.ctr with st := x.ctr.st - 1 } })))

/-- Launch queues (R85 to R88, R177, R355, R382; Tables 5-1, 5-2 and 23-4). A doorbell of an enabled queue that stays within its
ring submits its records, any other sets the queue's TERR, and so does every one before the HBM is ready; the host's oldest record
is copied from its slot once its context is defined and no write of the host is on its way; of the
records copied, the one that arrived first becomes a pending grid, or, where it breaks a rule, a rejected one with a record
of its lowest sub-code. -/
def Obligations.QueueEvents : Prop :=
  (∀ (s : State) (q : Nat) (v : Word),
    let x := s.queue q
    let on := s.ready.compute = true ∧ s.ready.hbm = true ∧ q < 64
    let ahead := (v.toNat + 2 ^ 32 - x.head) % 2 ^ 32
    let fits := x.en = true ∧ ahead ≤ 2 ^ x.log2n ∧ (x.tail + 2 ^ 32 - x.head) % 2 ^ 32 ≤ ahead
    (s.ready.compute = false ∨ 64 ≤ q → exec (.doorbell q v) s = .next s) ∧
    (s.ready.compute = true → q < 64 → s.ready.hbm = false → exec (.doorbell q v) s = .next (s.setQueue q { x with terr := true })) ∧
    (on → ¬ fits → exec (.doorbell q v) s = .next (s.setQueue q { x with terr := true })) ∧
    (on → fits → ∃ t l, exec (.doorbell q v) s = .next t ∧
      t.queue q = { x with tail := v.toNat, hostArr := x.hostArr ++ l } ∧
      l.length = (v.toNat + 2 ^ 32 - x.tail) % 2 ^ 32 ∧ (∀ k, k ≠ q → t.queue k = s.queue k) ∧ t.mem = s.mem ∧ t.warps = s.warps ∧
      t.grids = s.grids)) ∧
  (∀ (s : State) (q : Nat), let x := s.queue q
    (x.hostArr = [] ∨ (s.ctx x.ctx).v = false ∨ (s.ctx x.ctx).part ≠ x.part ∨ s.host.barPend ≠ [] →
      exec (.hostRingCopy q) s = .next s) ∧
    ∀ n l, x.hostArr = n :: l → (s.ctx x.ctx).v = true → (s.ctx x.ctx).part = x.part → s.host.barPend = [] →
      ∃ t, exec (.hostRingCopy q) s = .next t ∧ t.warps = s.warps ∧ t.grids = s.grids ∧
        t.queue q = { x with head := (x.head + 1) % 2 ^ 32, hostArr := l, hostCopied := x.hostCopied ++
          [{ record := (s.devRead (x.base + 512 * (x.head % 2 ^ x.log2n)) 512).1, arrival := n,
             recAddr := x.base + 512 * (x.head % 2 ^ x.log2n), ctx := x.ctx, depth := 0, parent := none, handle := 0,
             launcher := s.fab.fid, launchKey := 0, isHost := true, prio7 := false, step := 0 }] }) ∧
  (∀ (s : State) (q : Nat), (nextRecord (s.queue q) = none → exec (.recordArrival q) s = .next s) ∧
    ∀ r dev, nextRecord (s.queue q) = some (r, dev) → bytesNat r.record 0x050 8 = 0 → QuietRings s →
      let x := s.queue q
      let g := gridOf r q x.part
      let taken := { s.setQueue q (recordTaken x dev) with nextGrid := s.nextGrid + 1 }
      (recordSub g (s.part x.part).pchs = none → g.cben = false → s.fab.inbox = [] →
        exec (.recordArrival q) s = .next (taken.setGrid s.nextGrid g)) ∧
      (∀ c, (recordSub g (s.part x.part).pchs = some c ∨
          (recordSub g (s.part x.part).pchs = none ∧ g.cben = true ∧ c = 0x17)) → s.fab.inbox = [] →
        exec (.recordArrival q) s = .next ((taken.setGrid s.nextGrid { g with retired := true, rejected := true }).postEvent r.ctx
          { TrapRec.zero with code := 0x03, sub := c, aux := r.recAddr })))

/-- Teams and grids (R34, R40, R42, R48, R53, R58, R59, R89 to R92, R199, R241). A partition that is off or has no pending grid
places nothing; a pending grid whose context may run and whose first waiting team is new is placed on the first cluster that fits
it, each warp on its core with all lanes at the entry and empty registers, and its energy charged. A team whose warps have left
nothing open exits, its L1s clean, its streams closed and its pages and slots free; a grid whose share is done retires, on one
package at once and
raising its completion counter, else by reports to its launcher. -/
def Obligations.GridEvents : Prop :=
  (∀ (s : State) (p : Nat), ((s.part p).en = false ∨ s.pendingGrids p = [] → exec (.teamPlace p) s = .next s) ∧
    ∀ gi g idx k cl, (s.part p).en = true → s.pendingGrids p = [(gi, g)] → (s.ctx g.ctx).v = true → (s.ctx g.ctx).preq = false →
      (s.ctx g.ctx).failed = false → (g.started = true ∨ g.chsSize ≤ s.chipFree p) →
      (s.waiting gi g).head? = some (idx, none) → s.energyAdmits p g.eclass = true →
      s.findCluster p ((List.range g.warps).map fun i => (i, some (g.granules (g.role i)), g.tileGrant i)) = some (k, cl) →
      exec (.teamPlace p) s = .next (((s.placeNew gi g idx cl
        (State.logicalCluster k (State.clustersOf (s.part p)).length idx)).charge p g.eclass).countDecision p gi true)) ∧
  (∀ (s : State) (gi : Nat) (g : Grid) (idx cl lcl : Nat), g.warps ≤ 64 → amSorted s.warps = true → amSorted s.teams = true →
    s.grid? gi = some g → let t := s.placeNew gi g idx cl lcl
    t.nextTeam = s.nextTeam + 1 ∧ (∃ tm, t.team? s.nextTeam = some tm ∧ tm.grid = gi ∧ tm.idx = idx ∧ tm.status = .placed ∧
      tm.cluster = cl ∧ tm.nwarps = g.warps ∧ tm.stt = [] ∧ tm.fstat = 0) ∧
    (∀ k, k ≠ s.nextTeam → t.team? k = s.team? k) ∧
    (∀ v : WarpId, (∀ i < g.warps, wkey v ≠ wkey ⟨s.nextTeam, i⟩) → t.warp? v = s.warp? v) ∧
    ∀ i < g.warps, ∃ x, t.warp? ⟨s.nextTeam, i⟩ = some x ∧ x.role = g.role i ∧ x.core = 4 * cl + i % 4 ∧
      x.g = g.granules (g.role i) ∧ x.atl = g.tileGrant i ∧ x.status = .running ∧ x.regs = [] ∧ x.preds = [] ∧ x.tiles = [] ∧
      x.fr.map (fun e => (e.addr, e.mask)) = [(g.entry, allLanes)] ∧ x.cursor = none) ∧
  (∀ (s : State) (k : Nat) (tm : Team) (gi : Nat) (g : Grid), s.team? k = some tm → s.gridOf? k = some (gi, g) →
    let may := (tm.status = .placed ∨ tm.status = .yielding) ∧ tm.halted = none ∧ s.exitReady k = true
    (¬ may → exec (.teamExit k) s = .next s) ∧
    (may → g.cben = false → (s.ctx g.ctx).heldResume = false → amSorted s.warps = true → ∃ t, exec (.teamExit k) s = .next t ∧
      (∀ (v : WarpId) x, v.widx < 64 → s.warp? v = some x → t.warp? v = some (if v.team = k then { x with streams := [] } else x)) ∧
      (∃ y, t.team? k = some y ∧ y = { tm with status := .exited, stt := [], rslots := [], deadline := none }) ∧
      (∀ j, j ≠ k → t.team? j = s.team? j) ∧ t.grid? gi = some { g with exitedTeams := g.exitedTeams + 1 } ∧
      (∀ e ∈ s.warpsOf k, ∀ l ∈ (t.core e.2.core).l1, l.dirty = []) ∧
      ∀ n ∈ (t.part g.part).slots, n ∈ (s.part g.part).slots ∧ ∀ e ∈ tm.stt, e.2.hass = true → e.2.slot ≠ n)) ∧
  (∀ (s : State) (gi : Nat) (g : Grid), s.grid? gi = some g →
    let pod := g.pod s.fab.fid
    let done := g.retired = false ∧ s.shareDone gi g = true ∧ ((pod = true ∨ g.isHost = true) → s.writesOpen gi = false)
    let gone := { g with retired := true, chs := [], chsBytes := 0 }
    (¬ done → exec (.gridRetire gi) s = .next s) ∧
    (done → pod = false → exec (.gridRetire gi) s = .next
      (if g.ctrig / 2 ^ 31 = 0 then s.setGrid gi gone else (s.setGrid gi gone).trigAdd (g.ctrig % 4096) 1 none)) ∧
    (done → pod = true → g.launcher ≠ s.fab.fid →
      exec (.gridRetire gi) s = .next ((s.sendReport g).setGrid gi { gone with reported := true })) ∧
    (done → pod = true → g.launcher = s.fab.fid → g.reported = false → s.fab.fid ∉ g.reports → g.reports.length + 1 < g.nrank →
      ∃ l, exec (.gridRetire gi) s = .next (s.setGrid gi { g with reported := true, reports := l }) ∧
        ∀ f, f ∈ l ↔ f ∈ g.reports ∨ f = s.fab.fid))
/-! ### The fabric -/

/-- Every packet row (R187, R418; Table 9-2): a packet of another kind, or one before the links are trained, does nothing; one of
another incarnation is counted as stale and dropped; one of a reserved kind is dropped; any other does what its row says. -/
def Obligations.PacketAcceptance : Prop :=
  ∀ (s : State) (i : Instr) (p : Packet) (k : PktKind) (f : State → State), packetForm i = some (p, k, f) →
    let now := p.dfid = s.fab.fid ∧ p.dinc = s.fab.inc ∧ p.sinc = amGet 0 s.fab.peers p.sfid
    ((p.kind ≠ k ∧ p.kind.reserved = false) ∨ s.fab.linksUp = 0 → exec i s = .next s) ∧
    (p.kind = k ∨ p.kind.reserved = true → s.fab.linksUp ≠ 0 → ¬ now →
      exec i s = .next { s with host := { s.host with stalecnt := State.satInc s.host.stalecnt } }) ∧
    (p.kind ≠ k → s.fab.linksUp ≠ 0 → now → exec i s = .next s) ∧
    (p.kind = k → s.fab.linksUp ≠ 0 → now → exec i s = .next (f s))

/-- What packets do (R174, R176, R181 to R186, R188 to R195, R199 to R203, R298, R303, R304, R419, R420). A read is answered with
the bytes of its home; a write and an atomic perform there and are acknowledged or answered with the old value, the lanes of an
atomic that come one by one together with the last of them; a flag waits for the writes counted before it; an answer ends its
request; a message goes to the oldest matching receive, else to the overflow, else is dropped; a delivery lands in its buffer, its
counter rising with the last of it, or is refused, a refusal reaching its sender; a chunk is written and, once whole, lowers its
counter. -/
def Obligations.PacketEffects : Prop :=
  (∀ (s : State) (p : Packet),
    (s.keyWaits p.key = true → s.serveRead p = s) ∧
    (p.cas = false → s.keyWaits p.key = false → ∀ bs u, s.homeRead (s.redirected p.addr) p.key 0 p.len = (bs, u) → s.serveRead p =
      u.sendFree { answer u p .response with addr := p.addr, len := p.len, data := bs.mapIdx fun k b => (k, b) }) ∧
    (s.packetHeld p = true → s.serveWrite p = s ∧ s.serveAtomic p = s) ∧
    (s.packetHeld p = false → p.more = true → s.serveAtomic p = s.setFab { s.fab with atomLanes := s.fab.atomLanes ++ [p] }) ∧
    (s.packetHeld p = false → p.more = false → p.train ≠ 0 → (∀ q ∈ s.fab.atomLanes, State.sameTrain p q = true) →
      s.serveAtomic p = ((s.fab.atomLanes ++ [p]).foldl (fun (u : State) q => u.performAtomic q)
        (s.setFab { s.fab with atomLanes := [] })).pump) ∧
    (s.packetHeld p = false → NoStreams s → p.stream = false → p.more = false → s.fab.atomLanes = [] →
      (p.tag % 2 = 0 → s.serveWrite p = let u := s.homePatch (s.redirected p.addr) p.key 0 p.data
        u.sendFree (answer u p .ack)) ∧
      (p.tag = 4 → p.wide = false → ∀ op old u, p.atom = some op → s.homeNat (s.redirected p.addr) p.key 0 4 = (old, u) →
        s.serveAtomic p = let u := u.homeWrite (s.redirected p.addr) p.key 0 (leBytes 4 (State.atomResult op false old p.opnd))
          u.sendFree (answer u p .ack)) ∧
      (p.tag = 0 → p.wide = true → p.atom = none → ∀ old u, s.homeNat (s.redirected p.addr) p.key 0 8 = (old, u) →
        s.serveAtomic p = let u := u.homeWrite (s.redirected p.addr) p.key 0 (leBytes 8 (if old = p.opnd2 then p.opnd else old))
          u.sendFree { answer u p .response with addr := p.addr, len := 8, data := (leBytes 8 old).mapIdx fun k b => (k, b) })) ∧
    s.redirected p.addr = (match s.mem.redirs.find? fun r => r.1 == p.addr / 2 ^ 19 with
      | some r => r.2.1 * 2 ^ 19 + p.addr % 2 ^ 19
      | none => p.addr)) ∧
  (∀ (s : State) (p : Packet) (d : DStream), s.fab.streams = [d] → s.fab.flags = [] → State.streamIs p d = true → d.entry = true →
    d.close = none →
    (d.count < p.ofcnt → s.takeFlag p = s.setFab { s.fab with flags := [{ pkt := p, since := s.clock, waiting := false }] }) ∧
    (p.ofcnt ≤ d.count → s.packetHeld p = false → p.stream = true → s.takeFlag p =
      let u := (s.performWrite p true)
      let u := u.setFab { u.fab with streams := [{ d with count := d.count + 1, since := s.clock }] }
      u.sendFree (answer u p .ack)) ∧
    (p.ofcnt ≤ d.count → s.takeClose p = s.setFab { s.fab with streams := [] }) ∧
    (d.count < p.ofcnt → s.takeClose p = s.setFab { s.fab with streams := [{ d with close := some p.ofcnt }] })) ∧
  (∀ (s : State) (p : Packet), ((∀ r ∈ s.fab.reqs, ¬ (r.id = p.req ∧ r.fid = p.sfid)) →
      s.takeResponse p = s ∧ s.takeAck p = s ∧ s.takeNack p = s) ∧
    ∀ r, s.fab.reqs.find? (fun r => r.id == p.req && r.fid == p.sfid) = some r →
      (∀ w id, r.owner = .copy w id → r.kind ≠ .write → s.takeAck p = answered s r ∧
        s.takeNack p = if r.kind = .multicast then (answered s r).setFstat w.team 1 else answered s r) ∧
      (∀ w id line, r.owner = .copy w id → r.kind = .write → r.pin = some line →
        s.takeAck p = ((answered s r).noFill r.core).modCore r.core fun c => { c with l1 := c.l1.filter fun e => e.line != line }) ∧
      (∀ w id, r.owner = .store w id → s.takeAck p = ((answered s r).finishLoad w id).finishStore w id) ∧
      (∀ w id x l a, r.owner = .load w id → (answered s r).warp? w = some x → x.loads.find? (fun l => l.id == id) = some l →
        l.acq = none → r.serial = 1 → (r.lanes.head?.bind fun k => l.accs.find? fun a => a.lane == k.1) = some a →
        (∀ b ∈ r.fwd, b = none) → r.fwd.length = p.data.length → p.sig = 0 →
        s.takeResponse p = ((answered s r).setWarp w (withLoad x id fun (k : LoadOp) => boundLane k a.lane (p.data.map (·.2)))).finishLoad w id)) ∧
  (∀ (s : State) (p : Packet), p.opnd2 = 0 →
    ((s.ctx p.ctx).v = false → s.takeMessage p = let u := { s with host := { s.host with msgdrop := State.satInc s.host.msgdrop } }
      u.sendFree (answer u p .nack)) ∧
    ((s.ctx p.ctx).v = true → s.matchOf p = none → s.fab.overflow.length < 256 → s.takeMessage p =
      let u := s.setFab { s.fab with overflow := s.fab.overflow ++ [p] }
      u.sendFree (answer u p .ack)) ∧
    ((s.ctx p.ctx).v = true → ∀ t k r, s.matchOf p = some (t, k, r) → s.ctxHeld r.ctx r.buf p.data.length = false →
      s.takeMessage p = let u := (s.ctxWrite r.ctx r.buf (p.data.map (·.2))).modTeam t fun x =>
          { x with rslots := amSet x.rslots k { r with posted := false, word := State.doneWord p } }
        u.sendFree (answer u p .ack))) ∧
  (∀ (s : State) (p : Packet) (t : Tree), s.treeOf p.opnd = some t →
    (t.broken = true → s.takeMulticast p = s ∧ s.takeChunk p = s) ∧
    (t.broken = false →
      ((State.partKnown s.fab.refusedMcast p = true ∨ (∀ l ∈ s.fab.landings, ¬ mcastLands p l) → s.takeMulticast p =
          let u := s.setFab { s.fab with refusedMcast := State.addParts s.fab.refusedMcast p.opnd p.sfid p.train p.data.length p.len }
          u.sendFree (answer u p .nack)) ∧
        (∀ l, State.partKnown s.fab.refusedMcast p = false → l ∈ s.fab.landings → mcastLands p l →
          (∀ d ∈ s.fab.landings, mcastLands p d → d = l) →
          s.ctxHeld l.ctx (l.buf + p.addr) p.data.length = false →
          let u := s.ctxWrite l.ctx (l.buf + p.addr) (p.data.map (·.2))
          let u := u.setFab { u.fab with landings := mcastLanded l p u.fab.landings }
          let whole := p.len ≤ State.partsOf l.begun p.opnd p.sfid p.train + p.data.length
          (¬ whole ∨ l.ctr = none → s.takeMulticast p = u.sendFree (answer u p .ack)) ∧
          (∀ c, whole → l.ctr = some c →
            s.takeMulticast p = (u.trigAdd c 1 none).sendFree (answer (u.trigAdd c 1 none) p .ack)))) ∧
      (∀ gi g, s.chunkGrid p.opnd p.tag = some (gi, g) →
        s.ctxHeld g.ctx (g.rbase + p.addr * g.chunk + p.pos) p.data.length = false →
        let u := s.ctxWrite g.ctx (g.rbase + p.addr * g.chunk + p.pos) (p.data.map (·.2))
        let u := u.setFab { u.fab with
          chunkParts := State.addParts u.fab.chunkParts p.opnd p.tag p.addr p.data.length g.chunk }
        let whole := g.chunk ≤ State.partsOf s.fab.chunkParts p.opnd p.tag p.addr + p.data.length
        (¬ whole → s.takeChunk p = u) ∧
        (whole → s.trigGet g.ctrg ≠ 1 → s.takeChunk p = u.trigSet g.ctrg (State.clamp64 (u.trigGet g.ctrg - 1))))))

/-- Timeouts and trees (R4, R203, R204, R351, R415 to R417, R421). A request unanswered for 2^FTMO cycles after its packet has left
is given up: a load's lane takes all ones and RTO is set, a store's write counts as acknowledged and is reported once; a flag or a
stream held as long is dropped. A broken tree is reported to each context with a grid bound to it, and nothing of it stays queued;
requests of trees begin and end as TRQCTL says, which keeps the fields written without GO, and a release ends once nothing of the
tree is in flight. -/
def Obligations.FabricTimersAndTrees : Prop :=
  (∀ (s : State) (id : Nat), ((∀ r ∈ s.fab.reqs, r.id ≠ id ∨ r.out = false) → exec (.remoteTimeout id) s = .next s) ∧
    ∀ r, s.fab.reqs.find? (fun r => r.id == id && r.out) = some r →
      (s.clock < r.sent + 2 ^ s.host.ftmo → exec (.remoteTimeout id) s = .next s) ∧
      (r.sent + 2 ^ s.host.ftmo ≤ s.clock →
        (∀ w k x l a, r.owner = .load w k → (answered s r).warp? w = some x → x.loads.find? (fun l => l.id == k) = some l →
          (r.lanes.head?.bind fun q => l.accs.find? fun a => a.lane == q.1) = some a → exec (.remoteTimeout id) s =
          .next ((((answered s r).modTeam w.team fun t => { t with fstat := t.fstat ||| 1 }).setWarp w
            (withLoad x k fun (q : LoadOp) => boundLane q a.lane (List.replicate a.len 0xFF))).finishLoad w k)) ∧
        (∀ w k x o, r.owner = .store w k → r.kind = .write → (answered s r).warp? w = some x →
          x.stores.find? (fun o => o.id == k) = some o → r.fid ∉ o.lost →
          exec (.remoteTimeout id) s = .next ((((((answered s r).postEvent (s.ctxOf w.team) { TrapRec.zero with
              code := 0x10, sub := 0x41, addrv := true, addr := r.va, aux := r.fid, widx := w.widx, pcore := r.core })).setWarp w
            { x with stores := x.stores.map fun (q : StoreOp) => if q.id = k then { q with lost := q.lost ++ [r.fid] } else q
              }).finishLoad w k).finishStore w k)) ∧
        (r.owner = .nobody → exec (.remoteTimeout id) s = .next (answered s r)))) ∧
  (∀ (s : State) (k : Nat) (h : HeldFlag), s.fab.flags[k]? = some h →
    (h.waiting = true ∨ s.clock < h.since + 2 ^ s.host.ftmo ∨ (∃ t ∈ s.fab.streams, State.streamIs h.pkt t = true ∧ h.pkt.ofcnt ≤ t.count) →
      exec (.flagHoldTimeout k) s = .next s) ∧
    (h.waiting = false → h.since + 2 ^ s.host.ftmo ≤ s.clock →
      (∀ t ∈ s.fab.streams, State.streamIs h.pkt t = true → t.count < h.pkt.ofcnt) → exec (.flagHoldTimeout k) s =
      .next ({ s.setFab { s.fab with flags := s.fab.flags.eraseIdx k } with
        host := { s.host with flagdrop := State.satInc s.host.flagdrop } }.pump))) ∧
  (∀ (s : State) (k : Nat) (t : DStream), s.fab.streams[k]? = some t →
    (t.entry = false ∨ s.clock < t.since + 2 ^ s.host.ftmo → exec (.streamEntryCloseTimeout k) s = .next s) ∧
    (t.entry = true → t.since + 2 ^ s.host.ftmo ≤ s.clock → exec (.streamEntryCloseTimeout k) s =
      .next (s.setFab { s.fab with streams := s.fab.streams.eraseIdx k }).pump)) ∧
  (∀ (s : State) (n : Nat), ((∀ t, s.treeOf n = some t → t.broken = true) → exec (.treeBreak n) s = .next s) ∧
    ∀ t, s.treeOf n = some t → t.broken = false → ∃ u, exec (.treeBreak n) s = .next u ∧ u.mem = s.mem ∧
      ((∀ l ∈ s.fab.links, ∀ q ∈ l.2, ¬ (q.kind = .multicast ∧ q.opnd = n)) → u.warps = s.warps) ∧
      (∀ l ∈ u.fab.links, ∀ q ∈ l.2, ¬ ((q.kind = .chunk ∨ q.kind = .multicast) ∧ q.opnd = n)) ∧
      u.fab.trees = s.fab.trees.map (fun (q : Tree) => if q.ident = n then { q with broken := true } else q) ∧
      (∀ c, (∃ g ∈ s.grids, g.2.cben = true ∧ g.2.tree = n ∧ g.2.retired = false ∧ g.2.ctx = c) →
        (u.ctx c).events = (s.ctx c).events ++ [{ TrapRec.zero with code := 0x31, aux := n, clk := s.clock }]) ∧
      ∀ c, (∀ g ∈ s.grids, ¬ (g.2.cben = true ∧ g.2.tree = n ∧ g.2.retired = false ∧ g.2.ctx = c)) → u.ctx c = s.ctx c) ∧
  (∀ (s : State) (w : DWord), let op := w.toNat / 2 ^ 60 % 4
    let go := w.getLsbD 63 = true
    let n := w.toNat / 2 ^ 32 % 2 ^ 16
    (s.ready.fabric = false ∨ (go ∧ s.host.trqBusy = true) →
      exec (.treeCreate w) s = .next s ∧ exec (.treeRelease w) s = .next s) ∧
    (op ≠ 1 → exec (.treeCreate w) s = .next s) ∧ (op = 1 → exec (.treeRelease w) s = .next s) ∧
    (s.ready.fabric = true → ¬ go →
      (op = 1 → exec (.treeCreate w) s = .next { s with host := trqKept w s.host }) ∧
      (op ≠ 1 → exec (.treeRelease w) s = .next { s with host := trqKept w s.host })) ∧
    (s.ready.fabric = true → go → s.host.trqBusy = false →
      (op = 1 → ∀ l u, s.devRead s.host.trqlist (2 * n) = (l, u) →
        exec (.treeCreate w) s = .next { u with host := { trqKept w u.host with
          trqBusy := true
          trqReq := (1, 0)
          trqMembers := (List.range n).map fun k => bytesNat l (2 * k) 2 % 2 ^ 13 } }) ∧
      (op = 2 → (∀ t, s.treeOf (w.toNat % 2 ^ 16) = some t → t.broken = false) →
        exec (.treeRelease w) s = .next { s with host := { trqKept w s.host with
          trqBusy := true
          trqReq := (2, w.toNat % 2 ^ 16)
          trqMembers := [] } }))) ∧
  (∀ (s : State) (status tree : Nat), let op := s.host.trqReq.1
    let waits := op ≠ 1 ∧ status = 0 ∧ s.treeBusy s.host.trqReq.2 = true
    (s.host.trqBusy = false ∨ waits → exec (.treeRequestStatus status tree) s = .next s) ∧
    (s.host.trqBusy = true → ¬ waits → ∃ u, exec (.treeRequestStatus status tree) s = .next u ∧ u.host.trqBusy = false ∧
      u.warps = s.warps ∧ u.mem = s.mem ∧
      u.host.trqstat = 2 ^ 16 * (if op = 1 then tree % 2 ^ 16 else s.host.trqReq.2) + status % 16 ∧
      (status ≠ 0 → u.fab = s.fab) ∧
      (status = 0 → op ≠ 1 → u.treeOf s.host.trqReq.2 = none) ∧
      (status = 0 → op = 1 → s.fab.fid ∈ s.host.trqMembers → tree % 2 ^ 16 ≠ 0 → u.treeOf (tree % 2 ^ 16) =
        some { ident := tree % 2 ^ 16, members := s.host.trqMembers, broken := false, asg := 1, cmp := 0, zeroSteps := [] })))

/-! ### Contexts, saves and halts -/

/-- Contexts (R94, R100, R356, R357, R377). A request sets PREQ, and each placed team of the context enters YIELDING with its
deadline started; PREQ = 0 takes effect once the context reads SAVED, held until then; ROOT and SAVE are taken only while the
context has no grid, and a context is defined only in an enabled partition; a saved one is discarded with its teams, warps,
grids, landings and armed operations. -/
def Obligations.ContextEvents : Prop :=
  (∀ (s : State) (c : Nat), ((s.ctx c).preq = true → exec (.preemptRequest c) s = .next s) ∧
    ((s.ctx c).preq = false → amSorted s.teams = true → ∃ t, exec (.preemptRequest c) s = .next t ∧
      t = { s with teams := t.teams, ctxs := t.ctxs } ∧ t.ctx c = { s.ctx c with preq := true, heldResume := false } ∧
      (∀ k, k ≠ c → t.ctx k = s.ctx k) ∧
      ∀ k, t.team? k = (s.team? k).map fun (tm : Team) => if s.ctxOf k = c ∧ tm.status = .placed then
        { tm with status := .yielding, pqdl := s.pqdlOf k, deadline := some (s.clock + s.pqdlOf k) } else tm)) ∧
  (∀ (s : State) (c : Nat), let x := s.ctx c
    (x.preq = false → exec (.contextResume c) s = .next s) ∧
    (x.preq = true → (∃ e ∈ s.teamsOf c, e.2.status.onCluster = true) →
      exec (.contextResume c) s = .next (s.setCtx c { x with heldResume := true })) ∧
    (x.preq = true → (∀ e ∈ s.teamsOf c, e.2.status.onCluster = false) →
      exec (.contextResume c) s = .next (s.setCtx c { x with preq := x.failed, heldResume := false }))) ∧
  (∀ (s : State) (c : Nat) (v root save : DWord), let x := s.ctx c
    let i := Instr.contextDefine c v root save
    ((s.part (v.toNat % 8)).en = false ∨ v.getLsbD 63 = false → exec i s = .next s) ∧
    ((s.part (v.toNat % 8)).en = true → v.getLsbD 63 = true → v.getLsbD 61 = false → x.preq = false →
      ∃ t, exec i s = .next t ∧ t = { s with ctxs := t.ctxs } ∧ (∀ k, k ≠ c → t.ctx k = s.ctx k) ∧
        t.ctx c = if s.hasGrid c = true then { x with lawf := v.getLsbD 59 } else { x with
          v := true
          sysc := v.getLsbD 62
          lawf := v.getLsbD 59
          part := v.toNat % 8
          failed := x.failed && x.v
          root := root.toNat / 2 ^ 16 * 2 ^ 16
          save := save.toNat / 2 ^ 12 * 2 ^ 12 })) ∧
  (∀ (s : State) (c : Nat), let x := s.ctx c
    let gone := (s.teamsOf c).map (·.1)
    (x.v = false ∨ (∃ e ∈ s.teamsOf c, e.2.status.onCluster = true) → exec (.contextDiscard c) s = .next s) ∧
    (x.v = true → (∀ e ∈ s.teamsOf c, e.2.status.onCluster = false) → ∃ t, exec (.contextDiscard c) s = .next t ∧
      t.mem = s.mem ∧ t.ctx c = { Ctx.reset with root := x.root, save := x.save, nextHandle := x.nextHandle } ∧
      (∀ k, k ≠ c → t.ctx k = s.ctx k) ∧ (∀ k, t.team? k = if k ∈ gone then none else s.team? k) ∧
      (∀ w, t.warp? w = if wkey w / 64 ∈ gone then none else s.warp? w) ∧ (∀ g ∈ t.grids, g.2.ctx ≠ c) ∧
      (∀ k g, s.grid? k = some g → g.ctx ≠ c → t.grid? k = some g) ∧
      t.fab.landings = s.fab.landings.filter (fun l => l.ctx != c) ∧ t.fab.armed = s.fab.armed.filter fun a => a.ctx != c)) ∧
  (∀ (s : State) (i : Instr) (p c : Nat) (no : Bool), serviceForm i = some (p, c, no) →
    let page := State.pageOf (s.part p).psva
    (∀ e ∈ s.warps, (∀ o ∈ e.2.copies, page ∉ o.paused) ∧ ∀ o ∈ e.2.skOps, page ∉ o.paused) → amSorted s.warps = true →
    amSorted s.teams = true →
    ∃ t, exec i s = .next t ∧ t.mem = s.mem ∧ (t.part p).psFail = no ∧ (t.part p).psCtx = c ∧
      (t.ctx c).requests = (s.ctx c).requests.filter (fun q => q != page) ∧
      ∀ w x tm, s.warp? w = some x → s.team? (wkey w / 64) = some tm → t.warp? w = some
        (if s.ctxOf (wkey w / 64) = c ∧ (tm.status = .placed ∨ tm.status = .yielding) ∧ (∃ k, x.park = some k ∧ page ∈ k.pages) then
          { x with
            status := if x.status = .parked then .running else x.status
            park := none
            refused := if no then [page] else []
            lastRetire := s.clock - x.lastRetire }
        else x))

/-- Deadlines, saves, handler banks, halts, the watchdog and the event ring (R82, R93, R96, R97, R369 to R371, R374 to R379). A
team still yielding at its deadline is forced out, unless its warps have all exited; one whose warps have all yielded enters
SAVING; one with nothing in flight is written to the save area and its warps are SAVED. The bank goes to the warp that has waited
longest. Each warp of a halted team leaves its record, and the team is forced out; a warp that retires nothing for 2^WDLOG cycles
halts its team with 0x40; the oldest record enters the ring that the device read at the last placement, while it has room. -/
def Obligations.SaveAndHaltEvents : Prop :=
  (∀ (s : State) (k : Nat), ((∀ tm, s.team? k = some tm → tm.status ≠ .yielding ∨ ∀ d, tm.deadline = some d → s.clock < d) →
      exec (.deadlineExpire k) s = .next s) ∧
    ∀ tm d, s.team? k = some tm → tm.status = .yielding → tm.deadline = some d → d ≤ s.clock → amSorted s.warps = true →
      let stopped := (s.warpsOf k).filter fun e => e.2.status != .exited && e.2.status != .yielded && e.2.status != .saved
      ((∀ e ∈ s.warpsOf k, e.2.status = .exited) → exec (.deadlineExpire k) s = .next s) ∧
      ((∃ e ∈ s.warpsOf k, e.2.status ≠ .exited) → (∀ e ∈ s.warpsOf k, AtRest e.2) → exec (.deadlineExpire k) s = .next
        ((stopped.foldl (fun s (e : WarpId × Warp) =>
          (s.setWarp e.1 { e.2 with port := none, refused := [], lostWords := [] }).growLeave e.2.core e.1) s).setTeam k
            { tm with status := .saving, forced := tm.forced || !stopped.isEmpty, deadline := none, tdl := 0 }))) ∧
  (∀ (s : State) (k : Nat) (tm : Team), s.team? k = some tm →
    let ws := s.warpsOf k
    (tm.status = .yielding → ((∃ e ∈ ws, e.2.status ≠ .yielded ∧ e.2.status ≠ .exited) ∨ ∀ e ∈ ws, e.2.status = .exited) →
      exec (.teamSave k) s = .next s) ∧
    (tm.status = .yielding → (∀ e ∈ ws, e.2.status = .yielded ∨ e.2.status = .exited) → (∃ e ∈ ws, e.2.status = .yielded) →
      exec (.teamSave k) s = .next (s.setTeam k { tm with status := .saving, deadline := none, tdl := tm.deadline.getD s.clock - s.clock })) ∧
    ((tm.status ≠ .yielding ∧ tm.status ≠ .saving) ∨ (tm.status = .saving ∧ tm.halted ≠ none) → exec (.teamSave k) s = .next s) ∧
    (tm.status = .saving → tm.halted = none → (∀ e ∈ ws, e.2.openBatch = []) → amSorted s.warps = true →
      ((∃ e ∈ ws, s.drained e.1 e.2 = false) → ∃ t, exec (.teamSave k) s = .next t ∧ t.team? k = some tm ∧ t.mem = s.mem ∧
        ∀ v, t.warp? v = s.warp? v) ∧
      ((∀ e ∈ ws, s.drained e.1 e.2 = true) → (∀ e ∈ tm.stt, e.2.res = false) →
        let u := ws.foldl (fun s (e : WarpId × Warp) => (s.l1Flush e.2.core).closeStreams e.1) (s.freeFrames k)
        (∀ v, u.writeArea k ((u.team? k).getD tm) = some v →
          exec (.teamSave k) s = .next (((v.leaveCluster k).recount tm.grid tm.idx).afterSave (v.ctxOf k))) ∧
        (u.writeArea k ((u.team? k).getD tm) = none → exec (.teamSave k) s = .next (u.saveFails k)))) ∧
    (amSorted s.warps = true → ∀ w x, s.warp? w = some x → wkey w / 64 = k → (s.leaveCluster k).warp? w = some
      (if x.status = .exited then x else { x with
        status := .saved, port := none, lawDue := [], lawLost := none, wdHeld := some (State.wdCount s.clock x) }))) ∧
  (∀ (s : State) (c : Nat), let free := (s.core c).banks.findIdx? Option.isNone
    ((∀ e ∈ s.warpsOn c, State.waitsBank e.2 = false) ∨ free = none → exec (.handlerEntry c) s = .next s) ∧
    ∀ w x h k, (w, x) ∈ s.warpsOn c → State.waitsBank x = true → x.handler = some h → free = some k →
      (∀ e ∈ s.warpsOn c, e ≠ (w, x) → State.waitsBank e.2 = true → ∀ q, e.2.handler = some q → h.since < q.since) →
      let u := s.modCore c fun y => { y with banks := y.banks.set k (some w) }
      let held := x.lastRetire + (s.clock - h.since)
      (h.started = true → exec (.handlerEntry c) s = .next (u.setWarp w { x with handler := some { h with bank := some k }, lastRetire := held })) ∧
      (h.started = false → exec (.handlerEntry c) s = .next (u.setWarp w { x with
        hregs := []
        handler := some { h with bank := some k, started := true, trec := { h.trec with clk := s.clock } }
        lastRetire := held
        fr := if h.trec.mask = 0 then [] else
          [{ addr := s.thndOf w.team, mask := h.trec.mask, prio := 0, passes := 0, rejoin := false, known := false }]
        cursor := none
        port := none }))) ∧
  (∀ (s : State) (k : Nat) (tm : Team), s.team? k = some tm →
    (tm.halted = none ∨ tm.status.onCluster = false → exec (.teamHalt k) s = .next s) ∧
    (∀ cause, tm.halted = some cause → tm.status.onCluster = true → amSorted s.warps = true → (∀ e ∈ s.warpsOf k, Idle s e.2) →
      let l := (s.warpsOf k).filter fun e => e.2.status != .exited && e.2.status != .saved
      exec (.teamHalt k) s = .next ((l.foldl (fun s (e : WarpId × Warp) =>
        ((s.setWarp e.1 { e.2 with halt := none, haltStop := false, port := none, refused := [], lostWords := [] }).growLeave
          e.2.core e.1).postEvent (s.ctxOf k) (haltRecord cause e.1 e.2)) s).setTeam k
            { tm with halted := none, status := .saving, forced := true, deadline := none, tdl := 0 }))) ∧
  (∀ (s : State) (w : WarpId) (x : Warp) (tm : Team), s.warp? w = some x → s.team? w.team = some tm →
    (¬ Watched x tm ∨ s.clock < x.lastRetire + 2 ^ tm.wdlog → exec (.watchdogExpire w) s = .next s) ∧
    (Watched x tm → x.lastRetire + 2 ^ tm.wdlog ≤ s.clock → ∃ r, exec (.watchdogExpire w) s = .next ((s.haltTeam w r).modWarp w fun x =>
        { x with halt := some { r with halt := true, aux := 2 ^ tm.wdlog } }) ∧
      r.code = 0x40 ∧ r.widx = w.widx ∧ r.pcore = x.core ∧ r.nest = x.inHandler ∧ r.insn = 0 ∧ r.live = 0 ∧
      (∀ e l, x.window = e :: l → r.pc = e.pc ∧ r.mask = e.mask ∧ r.resume = e.mask) ∧
      ∀ c, x.window = [] → x.cursor = some c → r.pc = c.pc ∧ r.mask = c.rmask ∧ r.resume = c.rmask)) ∧
  (∀ (s u : State) (c : Nat) (h : List Byte), s.devRead (s.ctx c).save 64 = (h, u) →
    let x := s.ctx c
    let base := if x.log2e = 0 then bytesNat h 0x18 8 else x.evbase
    let n := 2 ^ (if x.log2e = 0 then max 4 (min 16 (bytesNat h 0x20 1 % 32)) else x.log2e)
    let tail := bytesNat h 0x28 4
    let full := n ≤ (tail + 2 ^ 32 - bytesNat h 0x30 4) % 2 ^ 32
    (x.events = [] → exec (.eventAppend c) s = .next s) ∧
    (∀ r l, x.events = r :: l → (full → exec (.eventAppend c) s = .next u) ∧
      (¬ full → exec (.eventAppend c) s = .next ((((u.devWrite (base + 64 * (tail % n)) (r.bytes true)).devWrite
        (x.save + 0x28) (leBytes 4 ((tail + 1) % 2 ^ 32))).setCtx c { x with events := l }).emit (.msix 0))))) ∧
  (∀ (s : State) (e : ErrorSite), exec (.correctedError e) s =
      .next (s.setPart e.part { s.part e.part with cecnt := State.satInc (s.part e.part).cecnt }) ∧
    (e.cleanCopy = true → e.src ≠ 1 → e.src ≠ 2 → e.src ≠ 7 → exec (.uncorrectableError e) s =
      .next (s.setPart e.part { s.part e.part with cecnt := State.satInc (s.part e.part).cecnt })) ∧
    (∀ c, e.cleanCopy = false → e.carter = none → e.save = none → e.ctx = some c →
      ∃ t, exec (.uncorrectableError e) s = .next t ∧ (t.ctx c).failed = true ∧
        (t.part e.part).ueaddr = e.addr ∧ (t.part e.part).uesrc = 2 ^ 63 + 2 ^ 32 * (c % 4096) + 2 ^ 16 * (e.unit % 512) + e.src % 16 ∧
        (t.part e.part).uecnt = State.satInc (s.part e.part).uecnt ∧ (∀ k, k ≠ c → t.ctx k = s.ctx k) ∧
        (t.ctx c).events = (s.ctx c).events ++ [{ TrapRec.zero with code := 0x60, addr := e.addr, aux := State.ueWord e, clk := s.clock }]))

/-! ### The host and the snapshot engine -/

/-- Bring-up and the host's window (R127, R177, R178, R187, R203, R350, R353, R354, R364, R418). A package reset leaves no warp,
team, grid or context, no function ready, every cache empty and the links down, and keeps the bytes of the HBM and the trees, their
counters afresh; a function becomes ready, the fabric only with its links trained; training gives the package its identity, or
after a reset its own under the next incarnation, and the lowest protocol version that any link reached; the window reads and
writes at WINBASE under WINKEY, a write to a page that waits for its twin, or under a key being loaded, being kept until it can
perform. -/
def Obligations.BringUp : Prop :=
  (∀ s : State, ∃ t, exec .packageReset s = .next t ∧ t.warps = [] ∧ t.teams = [] ∧ t.grids = [] ∧ t.ctxs = [] ∧ t.queues = [] ∧
    t.parts = [] ∧ t.cur = none ∧ (∀ f, readyBit t.ready f = false) ∧ t.mem.hbm = s.mem.hbm ∧ t.mem.l2 = [] ∧ t.mem.keys = [] ∧
    t.mem.redirs = [] ∧ t.mem.cores = [] ∧ t.fab.linksUp = 0 ∧ t.fab.fid = s.fab.fid ∧ t.fab.inc = s.fab.inc ∧
    t.fab.trees = s.fab.trees.map (fun (q : Tree) => { q with asg := 1, cmp := 0, zeroSteps := [] }) ∧
    t.fab.reqs = [] ∧ t.fab.streams = [] ∧ t.fab.peers = [] ∧ t.fab.triggers = [] ∧ t.host = State.reset.host) ∧
  (∀ (s : State) (f : DevFn), (f = .fabric → s.fab.linksUp = 0 → exec (.functionReady f) s = .next s) ∧
    (f ≠ .fabric ∨ s.fab.linksUp ≠ 0 → ∃ r, exec (.functionReady f) s = .next (s.setReady r) ∧ readyBit r f = true ∧
      ∀ g, g ≠ f → readyBit r g = readyBit s.ready g)) ∧
  (∀ (s : State) (fid inc : Nat) (offers : List Nat) (links : BitVec 16), let i := Instr.linkTraining fid inc offers links
    (s.ready.fabric = true ∨ links = 0 → exec i s = .next s) ∧
    (s.ready.fabric = false → links ≠ 0 → ∃ proto, proto ≤ Config.linkProtocol ∧
      (∀ l < 16, links.getLsbD l = true → proto ≤ offers.getD l 1) ∧
      (proto = Config.linkProtocol ∨ ∃ l < 16, links.getLsbD l = true ∧ proto = offers.getD l 1) ∧
      ((s.fab.joined = true ∨ fid = s.fab.fid) → exec i s = .next (s.setFab { s.fab with
        inc := if s.fab.joined then (s.fab.inc + 1) % 256 else inc
        joined := true
        proto := proto
        linksUp := links })) ∧
      (s.fab.joined = false → ∃ t, exec i s = .next t ∧ t.mem.hbm = s.mem.hbm ∧ t.ctxs = s.ctxs ∧
        t.fab = { s.fab with fid := fid, inc := inc, joined := true, proto := proto, linksUp := links } ∧
        ∀ w x, s.warp? w = some x → ∃ y, t.warp? w = some y ∧ y = { x with sigs := y.sigs }))) ∧
  (∀ (s : State) (off n : Nat), (s.ready.hbm = false ∨ 2 ^ 36 < off + n ∨ s.host.barPend ≠ [] ∨ s.keyWaits s.host.winkey = true →
      exec (.bar2Read off n) s = .next s) ∧
    (s.ready.hbm = true → off + n ≤ 2 ^ 36 → s.host.barPend = [] → s.keyWaits s.host.winkey = false → 0 < n → (s.host.winbase + off) % 128 + n ≤ 128 →
      ∀ bs u, s.homeRead (s.host.winbase + off) s.host.winkey 0 n = (bs, u) → exec (.bar2Read off n) s =
        if (s.host.winbase + off) / 2 ^ 36 < Config.stackCount then .next (u.emit (.data off bs))
        else .next (s.emit (.data off (List.replicate n 0))))) ∧
  ∀ (s : State) (off : Nat) (data : List Byte), let a := s.host.winbase + off
    (s.ready.hbm = false ∨ 2 ^ 36 < off + data.length → exec (.bar2Write off data) s = .next s) ∧
    (s.ready.hbm = true → off + data.length ≤ 2 ^ 36 → s.host.barPend = [] →
      ((∀ k, s.homeHeld k s.host.winkey = false) → exec (.bar2Write off data) s = .next (s.homeWrite a s.host.winkey 0 data)) ∧
      (0 < data.length → a % 128 + data.length ≤ 128 → s.homeHeld (a / 128 * 128) s.host.winkey = true →
        exec (.bar2Write off data) s = .next (s.setHost { s.host with barPend := [(a, s.host.winkey, data)] })))

/-- The host's registers (R4, R18, R92, R174, R178, R353, R355, R356, R358 to R360, R366). A write to a function that is not ready,
to a read-only or to a reserved offset does nothing, nor does a write of a value a register does not take; the entry of a context
that is not defined takes the fields written. A key takes the place of the one at KIDX, no cache keeping a line of it, as soon as
every dirty line of it can reach memory. A partition is enabled once, with the pool its registers give, and disabled only
when no context of it is defined; its layout registers are taken only while EN reads 0. Energy settings take effect at a
boundary, and a charge ages out. -/
def Obligations.HostRegisters : Prop :=
  (∀ (s : State) (off : Nat) (v : DWord), (s.apertureReady off = false ∨ off ∈ readOnly → exec (.registerWrite off v) s = .next s)) ∧
  (∀ (s : State) (v : DWord), let w := fun off => exec (.registerWrite off v) s
    let n := v.toNat
    (s.ready.compute = true → w 0x28 = .next (s.setHost { s.host with tlbiva := n }) ∧
      w 0x71010 = .next (if s.ready.fabric then s.setHost { s.host with trssel := n % 2 ^ 16 } else s) ∧
      w 0x00 = .next (if n % 256 = 0 ∨ Config.queueFormat < n % 256 ∨ s.queues.any (fun q => q.2.en) = true then s
        else s.setHost { s.host with qfmt := n % 256 })) ∧
    (s.ready.hbm = true → w 0x30 = .next (s.setHost { s.host with winbase := n / 2 ^ 36 * 2 ^ 36 }) ∧
      w 0x38 = .next (s.setHost { s.host with winkey := n % 2 ^ 12 })) ∧
    (s.ready.energy = true → w 0x08 = .next (if 40 < n % 64 then s else s.setHost { s.host with pwrset := n % 64 }) ∧
      w 0x10 = .next (if n % 1024 = 0 ∨ 1000 < n % 1024 then s else s.setHost { s.host with ewin := n % 1024 })) ∧
    (s.ready.fabric = true → w 0x80800 = .next (if n % 64 < 20 ∨ 40 < n % 64 then s else s.setHost { s.host with ftmo := n % 64 })) ∧
    (s.ready.compute = true → ∀ q < 64, w (0x10000 + 32 * q) =
        .next (s.setQueue q { s.queue q with base := n / 2 ^ 12 * 2 ^ 12 }) ∧
      w (0x10008 + 32 * q) = .next (if n % 32 < 4 ∨ 12 < n % 32 ∨ (v.getLsbD 31 = true ∧ (s.part (n / 2 ^ 8 % 8)).en = false) then s
        else s.setQueue q { s.queue q with
          en := v.getLsbD 31
          terr := (s.queue q).terr && !v.getLsbD 30
          ctx := n / 2 ^ 16 % 2 ^ 12
          part := n / 2 ^ 8 % 8
          log2n := n % 32 })) ∧
    (s.ready.compute = true → ∀ c < 4096, (s.ctx c).v = false → v.getLsbD 63 = false → w (0x20000 + 32 * c) =
      .next (s.setCtx c { s.ctx c with sysc := v.getLsbD 62, preq := v.getLsbD 61, lawf := v.getLsbD 59, part := n % 8 })) ∧
    (s.ready.compute = true → ∀ p < 8, (s.part p).en = true →
      ∀ r ∈ [0x08, 0x10, 0x18, 0x20, 0x28, 0x30, 0x38, 0x58], w (0x40000 + 256 * p + r) = .next s)) ∧
  (∀ (s : State) (i : Instr) (k : Nat), keyForm s i = some k →
    (s.ready.keys = false ∨ s.host.keyPend ≠ none → exec i s = .next s) ∧
    (s.ready.keys = true → s.host.keyPend = none → s.keyHeld s.host.kidx = true →
      exec i s = .next (s.setHost { s.host with keyPend := some (s.host.kidx, k) })) ∧
    (s.ready.keys = true → s.host.keyPend = none → (∀ c ∈ s.mem.cores, ∀ e ∈ c.2.l1, e.key ≠ s.host.kidx) → ∃ t, exec i s = .next t ∧
      t.mem.keys = amPut 0 s.mem.keys s.host.kidx k ∧ (∀ e ∈ t.mem.l2, e.key ≠ s.host.kidx) ∧ t = s.setMem t.mem ∧
      (∀ c ∈ t.mem.cores, ∀ e ∈ c.2.constCache, e.1 / 2 ^ 60 ≠ s.host.kidx) ∧
      ((∀ e ∈ s.mem.l2, e.key ≠ s.host.kidx) → t.mem.hbm = s.mem.hbm ∧ t.mem.l2 = s.mem.l2))) ∧
  (∀ (s : State) (p : Nat) (v : DWord), let x := s.part p
    let masks := { x with stackMask := v.toNat / 2 ^ 16 % 2 ^ 12, hubMask := v.toNat % 2 ^ 16 }
    (s.ready.compute = false ∨ x.en = true ∨ v.getLsbD 63 = false → exec (.partitionEnable p v) s = .next s) ∧
    (s.ready.compute = true → x.en = false → v.getLsbD 63 = true → exec (.partitionEnable p v) s =
      .next (s.setPart p { masks with en := true, twins := (List.range x.twcnt).map fun k => x.twbase / 2 ^ 19 + k })) ∧
    (s.ready.compute = false ∨ v.getLsbD 63 = true → exec (.partitionDisable p v) s = .next s) ∧
    (s.ready.compute = true → v.getLsbD 63 = false → exec (.partitionDisable p v) s = .next
      (if x.en = false then s.setPart p masks else if s.ctxs.any (fun c => c.2.v && c.2.part == p) then s
        else s.setPart p { x with en := false })) ∧
    exec (.redir p) s = .next (if s.ready.compute then s.setMem { s.mem with redirs := s.mem.redirs.filter fun r => r.2.2 != p } else s)) ∧
  (∀ s : State, exec .energyWindowBoundary s = .next (if s.clock < s.host.winStart + s.host.ewinNow * 4000000 then s
    else s.setHost { s.host with pwrNow := s.host.pwrset, ewinNow := s.host.ewin, winStart := s.clock })) ∧
  ∀ (s : State) (p k : Nat), exec (.chargeExpire p k) s = .next (s.setPart p { s.part p with
    charges := (s.part p).charges.filter fun c => !(c.k == k && c.expiry ≤ s.clock) })

/-- The snapshot engine (R4, R361 to R365, R422, R423). A write of SNCTL without ARM keeps its fields, whatever the engine does; one
with ARM while the engine is armed or draining does nothing; a set that
cannot be read or does not fit, a fabric that is not ready, or a tree that does not exist refuses it with its cause. The cut comes
once the tree's completion counter has reached SNSTEP: each leaf at TWIN 00 goes to TWIN 10. The Carter drains the next page, its
leaf back at TWIN 00 and its twin in the pool. A retry clears the failure; an abort returns leaves and twins and leaves the engine
idle. -/
def Obligations.SnapshotEvents : Prop :=
  (∀ (s : State) (p : Nat) (v : DWord), let x := (s.part p).snap
    let y := snapFields x v
    let i := Instr.snapshotArm p v
    (x.state = 1 ∨ x.state = 2 → v.getLsbD 0 = true → exec i s = .next s) ∧
    (v.getLsbD 0 = false → exec i s = .next (withSnap s p y)) ∧
    (x.state ≠ 1 → x.state ≠ 2 → v.getLsbD 0 = true → ∀ l u n,
      (withSnap s p { y with fail := false, cause := 0, page := 0, pages := [] }).readCtx (2 ^ 36 + p) y.ctx x.snset.toNat (16 * n) =
        (.bytes l, u) → n = x.sncnt.toNat % 2 ^ 32 →
      let u := u.inboxDrop devWarp (2 ^ 36 + p)
      let refused := fun (u : State) (cause page : Nat) =>
        exec i s = .next (withSnap u p { (u.part p).snap with state := 0, fail := true, cause := cause, page := page })
      (State.snapList l n = none → refused u 1 0) ∧
      ∀ vs, State.snapList l n = some vs →
        (∀ k z, u.snapPages y.ctx vs = (.error k, z) → refused z 1 k) ∧
        ∀ pages z, u.snapPages y.ctx vs = (.ok pages, z) →
          (z.ready.fabric = false → refused z 2 0) ∧
          (z.ready.fabric = true → z.treeCmp y.tree = none → refused z 3 0) ∧
          (z.ready.fabric = true → ∀ c, z.treeCmp y.tree = some c → c < (z.part p).snap.snstep.toNat → exec i s = .next
            (withSnap z p { (z.part p).snap with state := 1, pages := pages, total := pages.length, done := 0, twins := 0 })))) ∧
  (∀ (s : State) (p : Nat), let x := (s.part p).snap
    let i := Instr.snapshotCut p
    (x.state ≠ 1 ∨ s.treeCmp x.tree = none ∨ (∃ c, s.treeCmp x.tree = some c ∧ c < x.snstep.toNat) → exec i s = .next s) ∧
    (∀ c g e u, x.state = 1 → s.treeCmp x.tree = some c → x.snstep.toNat ≤ c → x.pages = [g] → s.readPte g.eaddr = (e, u) →
      let u := withSnap u p { (u.part p).snap with
        pages := [{ g with frame := pteAddr e, key := pteKey e, early := pteTwin e == 1 }] }
      let cut := fun (u : State) => withSnap u p { (u.part p).snap with state := 2 }
      (pteTwin e = 0 → exec i s = .next (cut (u.rewriteLeaf g.eaddr (pteSetTwin e 2)))) ∧
      (pteTwin e ≠ 0 → exec i s = .next (cut u)))) ∧
  (∀ (s : State) (p k : Nat), let x := (s.part p).snap
    let i := Instr.carterDrainPage p k
    (x.state ≠ 2 ∨ x.fail = true ∨ (∀ g ∈ x.pages, g.drained = true) ∨ (∃ g, State.nextPage x = some g ∧ g.k ≠ k) →
      exec i s = .next s) ∧
    ∀ g bs u, x.state = 2 → x.fail = false → State.nextPage x = some g → g.k = k →
      s.homeRead ((g.twin.getD g.frame) * 2 ^ 19) g.key 0 (2 ^ 19) = (bs, u) →
      let pg := fun (f : SnPage → SnPage) (u : State) => withSnap u p { (u.part p).snap with
        pages := (u.part p).snap.pages.map fun (q : SnPage) => if q.k = k then f q else q }
      let u := (pg (fun (q : SnPage) => { q with drained := true, acks := 4096, copy := bs }) u).sendPage p g bs
      let u := if g.early then (u.readPte g.eaddr).2
        else (u.readPte g.eaddr).2.rewriteLeaf g.eaddr (pteSetTwin (u.readPte g.eaddr).1 0)
      (g.twin = none → exec i s = .next u) ∧
      ∀ f, g.twin = some f → exec i s = .next (pg (fun (q : SnPage) => { q with twin := none })
        (u.setPart p { u.part p with twins := (u.part p).twins ++ [f] }))) ∧
  (∀ (s : State) (p : Nat), let x := (s.part p).snap
    (x.state ≠ 2 ∨ x.fail = false → exec (.snapshotRetry p) s = .next s) ∧
    (x.state = 2 → x.fail = true → (∀ g ∈ x.pages, g.lost = false) →
      exec (.snapshotRetry p) s = .next (withSnap s p { x with fail := false, cause := 0, page := 0 }))) ∧
  (∀ (s : State) (p : Nat), let x := (s.part p).snap
    let i := Instr.snapshotAbort p
    (x.state ≠ 1 → x.state ≠ 2 → exec i s = .next s) ∧
    (x.state = 1 ∨ (x.state = 2 ∧ ∀ g ∈ x.pages, g.drained = true ∨ g.early = true) →
      exec i s = .next (withSnap s p { x with state := 0, pages := [] })) ∧
    ∀ g e u, x.state = 2 → x.pages = [g] → g.drained = false → g.early = false → s.readPte g.eaddr = (e, u) →
      let u := u.rewriteLeaf g.eaddr (pteSetTwin e 0)
      let idle := fun (u : State) => withSnap u p { (u.part p).snap with state := 0, pages := [] }
      (g.twin = none → exec i s = .next (idle u)) ∧
      ∀ f, g.twin = some f → exec i s = .next (idle (u.setPart p { u.part p with twins := (u.part p).twins ++ [f] })))

/-! ### What every step keeps -/

/-- Every step keeps memory and the core scratch in their canonical form: addresses rising, no zero byte listed. -/
def Obligations.MemoryStaysCanonical : Prop :=
  ∀ s t : State, s.mem.hbm.wf = true → s.mem.frameMem.wf = true → step s = .next t →
    t.mem.hbm.wf = true ∧ t.mem.frameMem.wf = true

/-- Every step keeps the warps and teams in the order of their numbers, and the number that a warp gives its next instruction
above the numbers of every instruction and operation that it still holds. -/
def Obligations.WarpsStayFresh : Prop :=
  ∀ s t : State, amSorted s.warps = true → amSorted s.teams = true → (∀ e ∈ s.warps, Fresh e.2) → step s = .next t →
    amSorted t.warps = true ∧ amSorted t.teams = true ∧ ∀ e ∈ t.warps, Fresh e.2
end

