-- ==== Sys2Proof/Laws/Maps.lean ====
section
/-! SUPPORT. The laws of finite maps and of memory: reading after writing, and the canonical form, which every memory
operation keeps. -/

namespace Sys2Proof.Machine

variable {α β : Type}

/-! ### Reading after writing -/

@[simp] theorem amFind_nil (a : Nat) : amFind ([] : AMap α) a = none := rfl

@[simp] theorem amFind_cons (m : AMap α) (k a : Nat) (v : α) :
    amFind ((k, v) :: m) a = if a = k then some v else amFind m a := rfl

@[simp] theorem amFind_amSet_self (m : AMap α) (a : Nat) (x : α) : amFind (amSet m a x) a = some x := by
  induction m with
  | nil => simp [amSet]
  | cons p m ih =>
    obtain ⟨k, v⟩ := p
    simp only [amSet]
    split
    · simp
    · split <;> simp_all

theorem amFind_amSet_ne (m : AMap α) {a b : Nat} (x : α) (h : b ≠ a) : amFind (amSet m a x) b = amFind m b := by
  induction m with
  | nil => simp [amSet, h]
  | cons p m ih =>
    obtain ⟨k, v⟩ := p
    simp only [amSet]
    split
    · simp [h]
    · split
      · subst_vars; simp [h]
      · simp [ih]

theorem amFind_amSet (m : AMap α) (a b : Nat) (x : α) : amFind (amSet m a x) b = if b = a then some x else amFind m b := by
  split
  · subst_vars; simp
  · exact amFind_amSet_ne m x ‹_›

@[simp] theorem amSet_amSet (m : AMap α) (a : Nat) (x y : α) : amSet (amSet m a x) a y = amSet m a y := by
  induction m with
  | nil => simp [amSet]
  | cons p m ih =>
    obtain ⟨k, v⟩ := p
    simp only [amSet]
    split
    · simp [amSet]
    · split
      · simp [amSet]
      · simp_all [amSet]

theorem amMod_eq (m : AMap α) (a : Nat) (f : α → α) {x : α} (h : amFind m a = some x) : amMod m a f = amSet m a (f x) := by
  simp [amMod, h]

@[simp] theorem amMod_amSet (m : AMap α) (a : Nat) (x : α) (f : α → α) : amMod (amSet m a x) a f = amSet m a (f x) := by
  simp [amMod]

theorem amFind_amMod (m : AMap α) (a b : Nat) (f : α → α) :
    amFind (amMod m a f) b = if b = a then (amFind m a).map f else amFind m b := by
  unfold amMod
  cases h : amFind m a with
  | none => split <;> simp_all
  | some x => rw [amFind_amSet]; simp

/-! ### Keys strictly rising -/

/-- Every key of a map lies above a bound. -/
def amAbove (b : Nat) (m : AMap α) : Prop := ∀ p ∈ m, b < p.1

theorem amSorted_cons {k : Nat} {v : α} {m : AMap α} : amSorted ((k, v) :: m) = true ↔ amAbove k m ∧ amSorted m = true := by
  induction m generalizing k v with
  | nil => simp [amSorted, amAbove]
  | cons p m ih =>
    obtain ⟨k', v'⟩ := p
    simp only [amSorted, Bool.and_eq_true, decide_eq_true_eq]
    constructor
    · rintro ⟨hk, hs⟩
      refine ⟨?_, hs⟩
      intro q hq
      rcases List.mem_cons.1 hq with rfl | hq
      · exact hk
      · exact lt_trans hk ((ih.1 hs).1 q hq)
    · rintro ⟨ha, hs⟩
      exact ⟨ha (k', v') (by simp), hs⟩

theorem amAbove_mono {b c : Nat} {m : AMap α} (h : amAbove c m) (hb : b ≤ c) : amAbove b m := fun p hp => lt_of_le_of_lt hb (h p hp)

theorem mem_amSet {m : AMap α} {a : Nat} {x : α} {p : Nat × α} (h : p ∈ amSet m a x) : p = (a, x) ∨ p ∈ m := by
  induction m with
  | nil => simp [amSet] at h; exact .inl h
  | cons q m ih =>
    obtain ⟨k, v⟩ := q
    simp only [amSet] at h
    split at h
    · rcases List.mem_cons.1 h with h | h
      · exact .inl h
      · exact .inr h
    · split at h
      · rcases List.mem_cons.1 h with h | h
        · exact .inl h
        · exact .inr (List.mem_cons_of_mem _ h)
      · rcases List.mem_cons.1 h with h | h
        · exact .inr (h ▸ List.mem_cons_self)
        · rcases ih h with h | h
          · exact .inl h
          · exact .inr (List.mem_cons_of_mem _ h)

theorem mem_amErase {m : AMap α} {a : Nat} {p : Nat × α} (h : p ∈ amErase m a) : p ∈ m := by
  induction m with
  | nil => simp [amErase] at h
  | cons q m ih =>
    obtain ⟨k, v⟩ := q
    simp only [amErase] at h
    split at h
    · exact List.mem_cons_of_mem _ (ih h)
    · rcases List.mem_cons.1 h with h | h
      · exact h ▸ List.mem_cons_self
      · exact List.mem_cons_of_mem _ (ih h)

theorem amSorted_amSet {m : AMap α} (a : Nat) (x : α) (h : amSorted m = true) : amSorted (amSet m a x) = true := by
  induction m with
  | nil => simp [amSet, amSorted]
  | cons q m ih =>
    obtain ⟨k, v⟩ := q
    simp only [amSet]
    split
    · refine amSorted_cons.2 ⟨?_, h⟩
      intro p hp
      rcases List.mem_cons.1 hp with rfl | hp
      · assumption
      · exact lt_trans ‹a < k› ((amSorted_cons.1 h).1 p hp)
    · split
      · subst_vars; exact amSorted_cons.2 (amSorted_cons.1 h)
      · refine amSorted_cons.2 ⟨?_, ih (amSorted_cons.1 h).2⟩
        intro p hp
        rcases mem_amSet hp with rfl | hp
        · show k < a; omega
        · exact (amSorted_cons.1 h).1 p hp

theorem amSorted_amErase {m : AMap α} (a : Nat) (h : amSorted m = true) : amSorted (amErase m a) = true := by
  induction m with
  | nil => simp [amErase, amSorted]
  | cons q m ih =>
    obtain ⟨k, v⟩ := q
    simp only [amErase]
    split
    · exact ih (amSorted_cons.1 h).2
    · exact amSorted_cons.2 ⟨fun p hp => (amSorted_cons.1 h).1 p (mem_amErase hp), ih (amSorted_cons.1 h).2⟩

theorem amSorted_amPut [DecidableEq α] {m : AMap α} (d : α) (a : Nat) (x : α) (h : amSorted m = true) :
    amSorted (amPut d m a x) = true := by
  unfold amPut
  split
  · exact amSorted_amErase a h
  · exact amSorted_amSet a x h

theorem amSorted_amMod {m : AMap α} (a : Nat) (f : α → α) (h : amSorted m = true) : amSorted (amMod m a f) = true := by
  unfold amMod
  split
  · exact h
  · exact amSorted_amSet _ _ h

theorem amSorted_filter {m : AMap α} (f : Nat × α → Bool) (h : amSorted m = true) : amSorted (m.filter f) = true := by
  induction m with
  | nil => simp [amSorted]
  | cons q m ih =>
    obtain ⟨k, v⟩ := q
    simp only [List.filter_cons]
    have hq := amSorted_cons.1 h
    split
    · exact amSorted_cons.2 ⟨fun p hp => hq.1 p (List.mem_of_mem_filter hp), ih hq.2⟩
    · exact ih hq.2

theorem amFind_amErase (m : AMap α) (a b : Nat) : amFind (amErase m a) b = if b = a then none else amFind m b := by
  induction m with
  | nil => simp [amErase]
  | cons q m ih =>
    obtain ⟨k, v⟩ := q
    simp only [amErase]
    split
    · rw [ih]
      subst_vars
      split <;> simp_all
    · simp only [amFind_cons, ih]
      split
      · split
        · omega
        · rfl
      · rfl

theorem amGet_amPut [DecidableEq α] (m : AMap α) (d : α) (a b : Nat) (x : α) :
    amGet d (amPut d m a x) b = if b = a then x else amGet d m b := by
  unfold amGet amPut
  split
  · rw [amFind_amErase]
    split <;> simp_all
  · rw [amFind_amSet]
    split <;> simp

/-! ### Memory -/

theorem Memory.wf_iff {m : Memory} : m.wf = true ↔ amSorted m = true ∧ ∀ c ∈ m, c.2 ≠ 0 := by
  simp [Memory.wf]

theorem Memory.wf_set {m : Memory} (a : Nat) (b : Byte) (h : m.wf = true) : (Memory.set m a b).wf = true := by
  rw [wf_iff] at *
  refine ⟨amSorted_amPut 0 a b h.1, ?_⟩
  intro c hc
  unfold Memory.set amPut at hc
  split at hc
  · exact h.2 c (mem_amErase hc)
  · rcases mem_amSet hc with rfl | hc
    · assumption
    · exact h.2 c hc

theorem Memory.wf_write (l : List Byte) : ∀ {m : Memory} (a : Nat), m.wf = true → (Memory.write m a l).wf = true := by
  induction l with
  | nil => intro m a h; exact h
  | cons b l ih => intro m a h; exact ih (a + 1) (wf_set a b h)

theorem Memory.wf_patch (l : List (Nat × Byte)) : ∀ {m : Memory} (a : Nat), m.wf = true → (Memory.patch m a l).wf = true := by
  induction l with
  | nil => intro m a h; exact h
  | cons b l ih => intro m a h; exact ih a (wf_set _ _ h)

theorem Memory.wf_filter {m : Memory} (f : Host.Cell → Bool) (h : m.wf = true) : Memory.wf (m.filter f) = true := by
  rw [wf_iff] at *
  exact ⟨amSorted_filter f h.1, fun c hc => h.2 c (List.mem_of_mem_filter hc)⟩

theorem Memory.wf_clear {m : Memory} (a n : Nat) (h : m.wf = true) : (Memory.clear m a n).wf = true := wf_filter _ h

theorem Memory.wf_copy {m : Memory} (src dst n : Nat) (h : m.wf = true) : (Memory.copy m src dst n).wf = true :=
  wf_patch _ dst (wf_clear dst n h)

theorem Memory.get_set (m : Memory) (a c : Nat) (b : Byte) :
    Memory.get (Memory.set m a b) c = if c = a then b else Memory.get m c := amGet_amPut m 0 a c b

theorem Memory.get_write_outside (l : List Byte) : ∀ (m : Memory) (a c : Nat), (c < a ∨ a + l.length ≤ c) →
    Memory.get (Memory.write m a l) c = Memory.get m c := by
  induction l with
  | nil => intro m a c _; rfl
  | cons b l ih =>
    intro m a c hc
    simp only [Memory.write, List.length_cons] at *
    rw [ih _ (a + 1) c (by omega), get_set]
    simp [show c ≠ a by omega]

theorem Memory.get_write_inside (l : List Byte) : ∀ (m : Memory) (a k : Nat), k < l.length →
    Memory.get (Memory.write m a l) (a + k) = l.getD k 0 := by
  induction l with
  | nil => intro m a k hk; simp at hk
  | cons b l ih =>
    intro m a k hk
    simp only [Memory.write, List.length_cons] at *
    cases k with
    | zero =>
      rw [get_write_outside l _ (a + 1) (a + 0) (by omega), get_set]
      simp
    | succ k =>
      rw [show a + (k + 1) = a + 1 + k by omega, ih _ (a + 1) k (by omega)]
      simp

theorem Memory.get_patch_outside (l : List (Nat × Byte)) : ∀ (m : Memory) (a c : Nat),
    (∀ p ∈ l, a + p.1 ≠ c) → Memory.get (Memory.patch m a l) c = Memory.get m c := by
  induction l with
  | nil => intro m a c _; rfl
  | cons p l ih =>
    intro m a c hc
    obtain ⟨o, b⟩ := p
    simp only [Memory.patch]
    rw [ih _ a c (fun q hq => hc q (List.mem_cons_of_mem _ hq)), get_set]
    have := hc (o, b) (by simp)
    simp [Ne.symm this]

end Sys2Proof.Machine
end

