-- ==== Sys2Proof/Laws/State.lean ====
section
/-! SUPPORT. What each update of the state leaves in each field, so that no proof unfolds a record update; and reading a
warp, a team or a grid after writing one. -/

namespace Sys2Proof.Machine.State

variable (s : State)

/-! `setWarp` -/

@[simp] theorem setWarp_clock (w : WarpId) (x : Warp) : (s.setWarp w x).clock = s.clock := rfl
@[simp] theorem setWarp_stepNo (w : WarpId) (x : Warp) : (s.setWarp w x).stepNo = s.stepNo := rfl
@[simp] theorem setWarp_agenda (w : WarpId) (x : Warp) : (s.setWarp w x).agenda = s.agenda := rfl
@[simp] theorem setWarp_cur (w : WarpId) (x : Warp) : (s.setWarp w x).cur = s.cur := rfl
@[simp] theorem setWarp_warps (w : WarpId) (x : Warp) : (s.setWarp w x).warps = amSet s.warps (wkey w) x := rfl
@[simp] theorem setWarp_teams (w : WarpId) (x : Warp) : (s.setWarp w x).teams = s.teams := rfl
@[simp] theorem setWarp_grids (w : WarpId) (x : Warp) : (s.setWarp w x).grids = s.grids := rfl
@[simp] theorem setWarp_nextTeam (w : WarpId) (x : Warp) : (s.setWarp w x).nextTeam = s.nextTeam := rfl
@[simp] theorem setWarp_nextGrid (w : WarpId) (x : Warp) : (s.setWarp w x).nextGrid = s.nextGrid := rfl
@[simp] theorem setWarp_nextHandle (w : WarpId) (x : Warp) : (s.setWarp w x).nextHandle = s.nextHandle := rfl
@[simp] theorem setWarp_mem (w : WarpId) (x : Warp) : (s.setWarp w x).mem = s.mem := rfl
@[simp] theorem setWarp_queues (w : WarpId) (x : Warp) : (s.setWarp w x).queues = s.queues := rfl
@[simp] theorem setWarp_ctxs (w : WarpId) (x : Warp) : (s.setWarp w x).ctxs = s.ctxs := rfl
@[simp] theorem setWarp_parts (w : WarpId) (x : Warp) : (s.setWarp w x).parts = s.parts := rfl
@[simp] theorem setWarp_host (w : WarpId) (x : Warp) : (s.setWarp w x).host = s.host := rfl
@[simp] theorem setWarp_ready (w : WarpId) (x : Warp) : (s.setWarp w x).ready = s.ready := rfl
@[simp] theorem setWarp_fab (w : WarpId) (x : Warp) : (s.setWarp w x).fab = s.fab := rfl
@[simp] theorem setWarp_hostOut (w : WarpId) (x : Warp) : (s.setWarp w x).hostOut = s.hostOut := rfl

/-! `modWarp` -/

@[simp] theorem modWarp_clock (w : WarpId) (f : Warp → Warp) : (s.modWarp w f).clock = s.clock := rfl
@[simp] theorem modWarp_stepNo (w : WarpId) (f : Warp → Warp) : (s.modWarp w f).stepNo = s.stepNo := rfl
@[simp] theorem modWarp_agenda (w : WarpId) (f : Warp → Warp) : (s.modWarp w f).agenda = s.agenda := rfl
@[simp] theorem modWarp_cur (w : WarpId) (f : Warp → Warp) : (s.modWarp w f).cur = s.cur := rfl
@[simp] theorem modWarp_warps (w : WarpId) (f : Warp → Warp) : (s.modWarp w f).warps = amMod s.warps (wkey w) f := rfl
@[simp] theorem modWarp_teams (w : WarpId) (f : Warp → Warp) : (s.modWarp w f).teams = s.teams := rfl
@[simp] theorem modWarp_grids (w : WarpId) (f : Warp → Warp) : (s.modWarp w f).grids = s.grids := rfl
@[simp] theorem modWarp_nextTeam (w : WarpId) (f : Warp → Warp) : (s.modWarp w f).nextTeam = s.nextTeam := rfl
@[simp] theorem modWarp_nextGrid (w : WarpId) (f : Warp → Warp) : (s.modWarp w f).nextGrid = s.nextGrid := rfl
@[simp] theorem modWarp_nextHandle (w : WarpId) (f : Warp → Warp) : (s.modWarp w f).nextHandle = s.nextHandle := rfl
@[simp] theorem modWarp_mem (w : WarpId) (f : Warp → Warp) : (s.modWarp w f).mem = s.mem := rfl
@[simp] theorem modWarp_queues (w : WarpId) (f : Warp → Warp) : (s.modWarp w f).queues = s.queues := rfl
@[simp] theorem modWarp_ctxs (w : WarpId) (f : Warp → Warp) : (s.modWarp w f).ctxs = s.ctxs := rfl
@[simp] theorem modWarp_parts (w : WarpId) (f : Warp → Warp) : (s.modWarp w f).parts = s.parts := rfl
@[simp] theorem modWarp_host (w : WarpId) (f : Warp → Warp) : (s.modWarp w f).host = s.host := rfl
@[simp] theorem modWarp_ready (w : WarpId) (f : Warp → Warp) : (s.modWarp w f).ready = s.ready := rfl
@[simp] theorem modWarp_fab (w : WarpId) (f : Warp → Warp) : (s.modWarp w f).fab = s.fab := rfl
@[simp] theorem modWarp_hostOut (w : WarpId) (f : Warp → Warp) : (s.modWarp w f).hostOut = s.hostOut := rfl

/-! `dropWarp` -/

@[simp] theorem dropWarp_clock (w : WarpId) : (s.dropWarp w).clock = s.clock := rfl
@[simp] theorem dropWarp_stepNo (w : WarpId) : (s.dropWarp w).stepNo = s.stepNo := rfl
@[simp] theorem dropWarp_agenda (w : WarpId) : (s.dropWarp w).agenda = s.agenda := rfl
@[simp] theorem dropWarp_cur (w : WarpId) : (s.dropWarp w).cur = s.cur := rfl
@[simp] theorem dropWarp_warps (w : WarpId) : (s.dropWarp w).warps = amErase s.warps (wkey w) := rfl
@[simp] theorem dropWarp_teams (w : WarpId) : (s.dropWarp w).teams = s.teams := rfl
@[simp] theorem dropWarp_grids (w : WarpId) : (s.dropWarp w).grids = s.grids := rfl
@[simp] theorem dropWarp_nextTeam (w : WarpId) : (s.dropWarp w).nextTeam = s.nextTeam := rfl
@[simp] theorem dropWarp_nextGrid (w : WarpId) : (s.dropWarp w).nextGrid = s.nextGrid := rfl
@[simp] theorem dropWarp_nextHandle (w : WarpId) : (s.dropWarp w).nextHandle = s.nextHandle := rfl
@[simp] theorem dropWarp_mem (w : WarpId) : (s.dropWarp w).mem = s.mem := rfl
@[simp] theorem dropWarp_queues (w : WarpId) : (s.dropWarp w).queues = s.queues := rfl
@[simp] theorem dropWarp_ctxs (w : WarpId) : (s.dropWarp w).ctxs = s.ctxs := rfl
@[simp] theorem dropWarp_parts (w : WarpId) : (s.dropWarp w).parts = s.parts := rfl
@[simp] theorem dropWarp_host (w : WarpId) : (s.dropWarp w).host = s.host := rfl
@[simp] theorem dropWarp_ready (w : WarpId) : (s.dropWarp w).ready = s.ready := rfl
@[simp] theorem dropWarp_fab (w : WarpId) : (s.dropWarp w).fab = s.fab := rfl
@[simp] theorem dropWarp_hostOut (w : WarpId) : (s.dropWarp w).hostOut = s.hostOut := rfl

/-! `setTeam` -/

@[simp] theorem setTeam_clock (t : Nat) (x : Team) : (s.setTeam t x).clock = s.clock := rfl
@[simp] theorem setTeam_stepNo (t : Nat) (x : Team) : (s.setTeam t x).stepNo = s.stepNo := rfl
@[simp] theorem setTeam_agenda (t : Nat) (x : Team) : (s.setTeam t x).agenda = s.agenda := rfl
@[simp] theorem setTeam_cur (t : Nat) (x : Team) : (s.setTeam t x).cur = s.cur := rfl
@[simp] theorem setTeam_warps (t : Nat) (x : Team) : (s.setTeam t x).warps = s.warps := rfl
@[simp] theorem setTeam_teams (t : Nat) (x : Team) : (s.setTeam t x).teams = amSet s.teams t x := rfl
@[simp] theorem setTeam_grids (t : Nat) (x : Team) : (s.setTeam t x).grids = s.grids := rfl
@[simp] theorem setTeam_nextTeam (t : Nat) (x : Team) : (s.setTeam t x).nextTeam = s.nextTeam := rfl
@[simp] theorem setTeam_nextGrid (t : Nat) (x : Team) : (s.setTeam t x).nextGrid = s.nextGrid := rfl
@[simp] theorem setTeam_nextHandle (t : Nat) (x : Team) : (s.setTeam t x).nextHandle = s.nextHandle := rfl
@[simp] theorem setTeam_mem (t : Nat) (x : Team) : (s.setTeam t x).mem = s.mem := rfl
@[simp] theorem setTeam_queues (t : Nat) (x : Team) : (s.setTeam t x).queues = s.queues := rfl
@[simp] theorem setTeam_ctxs (t : Nat) (x : Team) : (s.setTeam t x).ctxs = s.ctxs := rfl
@[simp] theorem setTeam_parts (t : Nat) (x : Team) : (s.setTeam t x).parts = s.parts := rfl
@[simp] theorem setTeam_host (t : Nat) (x : Team) : (s.setTeam t x).host = s.host := rfl
@[simp] theorem setTeam_ready (t : Nat) (x : Team) : (s.setTeam t x).ready = s.ready := rfl
@[simp] theorem setTeam_fab (t : Nat) (x : Team) : (s.setTeam t x).fab = s.fab := rfl
@[simp] theorem setTeam_hostOut (t : Nat) (x : Team) : (s.setTeam t x).hostOut = s.hostOut := rfl

/-! `modTeam` -/

@[simp] theorem modTeam_clock (t : Nat) (f : Team → Team) : (s.modTeam t f).clock = s.clock := rfl
@[simp] theorem modTeam_stepNo (t : Nat) (f : Team → Team) : (s.modTeam t f).stepNo = s.stepNo := rfl
@[simp] theorem modTeam_agenda (t : Nat) (f : Team → Team) : (s.modTeam t f).agenda = s.agenda := rfl
@[simp] theorem modTeam_cur (t : Nat) (f : Team → Team) : (s.modTeam t f).cur = s.cur := rfl
@[simp] theorem modTeam_warps (t : Nat) (f : Team → Team) : (s.modTeam t f).warps = s.warps := rfl
@[simp] theorem modTeam_teams (t : Nat) (f : Team → Team) : (s.modTeam t f).teams = amMod s.teams t f := rfl
@[simp] theorem modTeam_grids (t : Nat) (f : Team → Team) : (s.modTeam t f).grids = s.grids := rfl
@[simp] theorem modTeam_nextTeam (t : Nat) (f : Team → Team) : (s.modTeam t f).nextTeam = s.nextTeam := rfl
@[simp] theorem modTeam_nextGrid (t : Nat) (f : Team → Team) : (s.modTeam t f).nextGrid = s.nextGrid := rfl
@[simp] theorem modTeam_nextHandle (t : Nat) (f : Team → Team) : (s.modTeam t f).nextHandle = s.nextHandle := rfl
@[simp] theorem modTeam_mem (t : Nat) (f : Team → Team) : (s.modTeam t f).mem = s.mem := rfl
@[simp] theorem modTeam_queues (t : Nat) (f : Team → Team) : (s.modTeam t f).queues = s.queues := rfl
@[simp] theorem modTeam_ctxs (t : Nat) (f : Team → Team) : (s.modTeam t f).ctxs = s.ctxs := rfl
@[simp] theorem modTeam_parts (t : Nat) (f : Team → Team) : (s.modTeam t f).parts = s.parts := rfl
@[simp] theorem modTeam_host (t : Nat) (f : Team → Team) : (s.modTeam t f).host = s.host := rfl
@[simp] theorem modTeam_ready (t : Nat) (f : Team → Team) : (s.modTeam t f).ready = s.ready := rfl
@[simp] theorem modTeam_fab (t : Nat) (f : Team → Team) : (s.modTeam t f).fab = s.fab := rfl
@[simp] theorem modTeam_hostOut (t : Nat) (f : Team → Team) : (s.modTeam t f).hostOut = s.hostOut := rfl

/-! `setGrid` -/

@[simp] theorem setGrid_clock (g : Nat) (x : Grid) : (s.setGrid g x).clock = s.clock := rfl
@[simp] theorem setGrid_stepNo (g : Nat) (x : Grid) : (s.setGrid g x).stepNo = s.stepNo := rfl
@[simp] theorem setGrid_agenda (g : Nat) (x : Grid) : (s.setGrid g x).agenda = s.agenda := rfl
@[simp] theorem setGrid_cur (g : Nat) (x : Grid) : (s.setGrid g x).cur = s.cur := rfl
@[simp] theorem setGrid_warps (g : Nat) (x : Grid) : (s.setGrid g x).warps = s.warps := rfl
@[simp] theorem setGrid_teams (g : Nat) (x : Grid) : (s.setGrid g x).teams = s.teams := rfl
@[simp] theorem setGrid_grids (g : Nat) (x : Grid) : (s.setGrid g x).grids = amSet s.grids g x := rfl
@[simp] theorem setGrid_nextTeam (g : Nat) (x : Grid) : (s.setGrid g x).nextTeam = s.nextTeam := rfl
@[simp] theorem setGrid_nextGrid (g : Nat) (x : Grid) : (s.setGrid g x).nextGrid = s.nextGrid := rfl
@[simp] theorem setGrid_nextHandle (g : Nat) (x : Grid) : (s.setGrid g x).nextHandle = s.nextHandle := rfl
@[simp] theorem setGrid_mem (g : Nat) (x : Grid) : (s.setGrid g x).mem = s.mem := rfl
@[simp] theorem setGrid_queues (g : Nat) (x : Grid) : (s.setGrid g x).queues = s.queues := rfl
@[simp] theorem setGrid_ctxs (g : Nat) (x : Grid) : (s.setGrid g x).ctxs = s.ctxs := rfl
@[simp] theorem setGrid_parts (g : Nat) (x : Grid) : (s.setGrid g x).parts = s.parts := rfl
@[simp] theorem setGrid_host (g : Nat) (x : Grid) : (s.setGrid g x).host = s.host := rfl
@[simp] theorem setGrid_ready (g : Nat) (x : Grid) : (s.setGrid g x).ready = s.ready := rfl
@[simp] theorem setGrid_fab (g : Nat) (x : Grid) : (s.setGrid g x).fab = s.fab := rfl
@[simp] theorem setGrid_hostOut (g : Nat) (x : Grid) : (s.setGrid g x).hostOut = s.hostOut := rfl

/-! `modGrid` -/

@[simp] theorem modGrid_clock (g : Nat) (f : Grid → Grid) : (s.modGrid g f).clock = s.clock := rfl
@[simp] theorem modGrid_stepNo (g : Nat) (f : Grid → Grid) : (s.modGrid g f).stepNo = s.stepNo := rfl
@[simp] theorem modGrid_agenda (g : Nat) (f : Grid → Grid) : (s.modGrid g f).agenda = s.agenda := rfl
@[simp] theorem modGrid_cur (g : Nat) (f : Grid → Grid) : (s.modGrid g f).cur = s.cur := rfl
@[simp] theorem modGrid_warps (g : Nat) (f : Grid → Grid) : (s.modGrid g f).warps = s.warps := rfl
@[simp] theorem modGrid_teams (g : Nat) (f : Grid → Grid) : (s.modGrid g f).teams = s.teams := rfl
@[simp] theorem modGrid_grids (g : Nat) (f : Grid → Grid) : (s.modGrid g f).grids = amMod s.grids g f := rfl
@[simp] theorem modGrid_nextTeam (g : Nat) (f : Grid → Grid) : (s.modGrid g f).nextTeam = s.nextTeam := rfl
@[simp] theorem modGrid_nextGrid (g : Nat) (f : Grid → Grid) : (s.modGrid g f).nextGrid = s.nextGrid := rfl
@[simp] theorem modGrid_nextHandle (g : Nat) (f : Grid → Grid) : (s.modGrid g f).nextHandle = s.nextHandle := rfl
@[simp] theorem modGrid_mem (g : Nat) (f : Grid → Grid) : (s.modGrid g f).mem = s.mem := rfl
@[simp] theorem modGrid_queues (g : Nat) (f : Grid → Grid) : (s.modGrid g f).queues = s.queues := rfl
@[simp] theorem modGrid_ctxs (g : Nat) (f : Grid → Grid) : (s.modGrid g f).ctxs = s.ctxs := rfl
@[simp] theorem modGrid_parts (g : Nat) (f : Grid → Grid) : (s.modGrid g f).parts = s.parts := rfl
@[simp] theorem modGrid_host (g : Nat) (f : Grid → Grid) : (s.modGrid g f).host = s.host := rfl
@[simp] theorem modGrid_ready (g : Nat) (f : Grid → Grid) : (s.modGrid g f).ready = s.ready := rfl
@[simp] theorem modGrid_fab (g : Nat) (f : Grid → Grid) : (s.modGrid g f).fab = s.fab := rfl
@[simp] theorem modGrid_hostOut (g : Nat) (f : Grid → Grid) : (s.modGrid g f).hostOut = s.hostOut := rfl

/-! `setCtx` -/

@[simp] theorem setCtx_clock (c : Nat) (x : Ctx) : (s.setCtx c x).clock = s.clock := rfl
@[simp] theorem setCtx_stepNo (c : Nat) (x : Ctx) : (s.setCtx c x).stepNo = s.stepNo := rfl
@[simp] theorem setCtx_agenda (c : Nat) (x : Ctx) : (s.setCtx c x).agenda = s.agenda := rfl
@[simp] theorem setCtx_cur (c : Nat) (x : Ctx) : (s.setCtx c x).cur = s.cur := rfl
@[simp] theorem setCtx_warps (c : Nat) (x : Ctx) : (s.setCtx c x).warps = s.warps := rfl
@[simp] theorem setCtx_teams (c : Nat) (x : Ctx) : (s.setCtx c x).teams = s.teams := rfl
@[simp] theorem setCtx_grids (c : Nat) (x : Ctx) : (s.setCtx c x).grids = s.grids := rfl
@[simp] theorem setCtx_nextTeam (c : Nat) (x : Ctx) : (s.setCtx c x).nextTeam = s.nextTeam := rfl
@[simp] theorem setCtx_nextGrid (c : Nat) (x : Ctx) : (s.setCtx c x).nextGrid = s.nextGrid := rfl
@[simp] theorem setCtx_nextHandle (c : Nat) (x : Ctx) : (s.setCtx c x).nextHandle = s.nextHandle := rfl
@[simp] theorem setCtx_mem (c : Nat) (x : Ctx) : (s.setCtx c x).mem = s.mem := rfl
@[simp] theorem setCtx_queues (c : Nat) (x : Ctx) : (s.setCtx c x).queues = s.queues := rfl
@[simp] theorem setCtx_ctxs (c : Nat) (x : Ctx) : (s.setCtx c x).ctxs = amPut Ctx.reset s.ctxs c x := rfl
@[simp] theorem setCtx_parts (c : Nat) (x : Ctx) : (s.setCtx c x).parts = s.parts := rfl
@[simp] theorem setCtx_host (c : Nat) (x : Ctx) : (s.setCtx c x).host = s.host := rfl
@[simp] theorem setCtx_ready (c : Nat) (x : Ctx) : (s.setCtx c x).ready = s.ready := rfl
@[simp] theorem setCtx_fab (c : Nat) (x : Ctx) : (s.setCtx c x).fab = s.fab := rfl
@[simp] theorem setCtx_hostOut (c : Nat) (x : Ctx) : (s.setCtx c x).hostOut = s.hostOut := rfl

/-! `modCtx` -/

@[simp] theorem modCtx_clock (c : Nat) (f : Ctx → Ctx) : (s.modCtx c f).clock = s.clock := rfl
@[simp] theorem modCtx_stepNo (c : Nat) (f : Ctx → Ctx) : (s.modCtx c f).stepNo = s.stepNo := rfl
@[simp] theorem modCtx_agenda (c : Nat) (f : Ctx → Ctx) : (s.modCtx c f).agenda = s.agenda := rfl
@[simp] theorem modCtx_cur (c : Nat) (f : Ctx → Ctx) : (s.modCtx c f).cur = s.cur := rfl
@[simp] theorem modCtx_warps (c : Nat) (f : Ctx → Ctx) : (s.modCtx c f).warps = s.warps := rfl
@[simp] theorem modCtx_teams (c : Nat) (f : Ctx → Ctx) : (s.modCtx c f).teams = s.teams := rfl
@[simp] theorem modCtx_grids (c : Nat) (f : Ctx → Ctx) : (s.modCtx c f).grids = s.grids := rfl
@[simp] theorem modCtx_nextTeam (c : Nat) (f : Ctx → Ctx) : (s.modCtx c f).nextTeam = s.nextTeam := rfl
@[simp] theorem modCtx_nextGrid (c : Nat) (f : Ctx → Ctx) : (s.modCtx c f).nextGrid = s.nextGrid := rfl
@[simp] theorem modCtx_nextHandle (c : Nat) (f : Ctx → Ctx) : (s.modCtx c f).nextHandle = s.nextHandle := rfl
@[simp] theorem modCtx_mem (c : Nat) (f : Ctx → Ctx) : (s.modCtx c f).mem = s.mem := rfl
@[simp] theorem modCtx_queues (c : Nat) (f : Ctx → Ctx) : (s.modCtx c f).queues = s.queues := rfl
@[simp] theorem modCtx_ctxs (c : Nat) (f : Ctx → Ctx) : (s.modCtx c f).ctxs = amPut Ctx.reset s.ctxs c (f (s.ctx c)) := rfl
@[simp] theorem modCtx_parts (c : Nat) (f : Ctx → Ctx) : (s.modCtx c f).parts = s.parts := rfl
@[simp] theorem modCtx_host (c : Nat) (f : Ctx → Ctx) : (s.modCtx c f).host = s.host := rfl
@[simp] theorem modCtx_ready (c : Nat) (f : Ctx → Ctx) : (s.modCtx c f).ready = s.ready := rfl
@[simp] theorem modCtx_fab (c : Nat) (f : Ctx → Ctx) : (s.modCtx c f).fab = s.fab := rfl
@[simp] theorem modCtx_hostOut (c : Nat) (f : Ctx → Ctx) : (s.modCtx c f).hostOut = s.hostOut := rfl

/-! `setPart` -/

@[simp] theorem setPart_clock (p : Nat) (x : Part) : (s.setPart p x).clock = s.clock := rfl
@[simp] theorem setPart_stepNo (p : Nat) (x : Part) : (s.setPart p x).stepNo = s.stepNo := rfl
@[simp] theorem setPart_agenda (p : Nat) (x : Part) : (s.setPart p x).agenda = s.agenda := rfl
@[simp] theorem setPart_cur (p : Nat) (x : Part) : (s.setPart p x).cur = s.cur := rfl
@[simp] theorem setPart_warps (p : Nat) (x : Part) : (s.setPart p x).warps = s.warps := rfl
@[simp] theorem setPart_teams (p : Nat) (x : Part) : (s.setPart p x).teams = s.teams := rfl
@[simp] theorem setPart_grids (p : Nat) (x : Part) : (s.setPart p x).grids = s.grids := rfl
@[simp] theorem setPart_nextTeam (p : Nat) (x : Part) : (s.setPart p x).nextTeam = s.nextTeam := rfl
@[simp] theorem setPart_nextGrid (p : Nat) (x : Part) : (s.setPart p x).nextGrid = s.nextGrid := rfl
@[simp] theorem setPart_nextHandle (p : Nat) (x : Part) : (s.setPart p x).nextHandle = s.nextHandle := rfl
@[simp] theorem setPart_mem (p : Nat) (x : Part) : (s.setPart p x).mem = s.mem := rfl
@[simp] theorem setPart_queues (p : Nat) (x : Part) : (s.setPart p x).queues = s.queues := rfl
@[simp] theorem setPart_ctxs (p : Nat) (x : Part) : (s.setPart p x).ctxs = s.ctxs := rfl
@[simp] theorem setPart_parts (p : Nat) (x : Part) : (s.setPart p x).parts = amPut Part.reset s.parts p x := rfl
@[simp] theorem setPart_host (p : Nat) (x : Part) : (s.setPart p x).host = s.host := rfl
@[simp] theorem setPart_ready (p : Nat) (x : Part) : (s.setPart p x).ready = s.ready := rfl
@[simp] theorem setPart_fab (p : Nat) (x : Part) : (s.setPart p x).fab = s.fab := rfl
@[simp] theorem setPart_hostOut (p : Nat) (x : Part) : (s.setPart p x).hostOut = s.hostOut := rfl

/-! `modPart` -/

@[simp] theorem modPart_clock (p : Nat) (f : Part → Part) : (s.modPart p f).clock = s.clock := rfl
@[simp] theorem modPart_stepNo (p : Nat) (f : Part → Part) : (s.modPart p f).stepNo = s.stepNo := rfl
@[simp] theorem modPart_agenda (p : Nat) (f : Part → Part) : (s.modPart p f).agenda = s.agenda := rfl
@[simp] theorem modPart_cur (p : Nat) (f : Part → Part) : (s.modPart p f).cur = s.cur := rfl
@[simp] theorem modPart_warps (p : Nat) (f : Part → Part) : (s.modPart p f).warps = s.warps := rfl
@[simp] theorem modPart_teams (p : Nat) (f : Part → Part) : (s.modPart p f).teams = s.teams := rfl
@[simp] theorem modPart_grids (p : Nat) (f : Part → Part) : (s.modPart p f).grids = s.grids := rfl
@[simp] theorem modPart_nextTeam (p : Nat) (f : Part → Part) : (s.modPart p f).nextTeam = s.nextTeam := rfl
@[simp] theorem modPart_nextGrid (p : Nat) (f : Part → Part) : (s.modPart p f).nextGrid = s.nextGrid := rfl
@[simp] theorem modPart_nextHandle (p : Nat) (f : Part → Part) : (s.modPart p f).nextHandle = s.nextHandle := rfl
@[simp] theorem modPart_mem (p : Nat) (f : Part → Part) : (s.modPart p f).mem = s.mem := rfl
@[simp] theorem modPart_queues (p : Nat) (f : Part → Part) : (s.modPart p f).queues = s.queues := rfl
@[simp] theorem modPart_ctxs (p : Nat) (f : Part → Part) : (s.modPart p f).ctxs = s.ctxs := rfl
@[simp] theorem modPart_parts (p : Nat) (f : Part → Part) : (s.modPart p f).parts = amPut Part.reset s.parts p (f (s.part p)) := rfl
@[simp] theorem modPart_host (p : Nat) (f : Part → Part) : (s.modPart p f).host = s.host := rfl
@[simp] theorem modPart_ready (p : Nat) (f : Part → Part) : (s.modPart p f).ready = s.ready := rfl
@[simp] theorem modPart_fab (p : Nat) (f : Part → Part) : (s.modPart p f).fab = s.fab := rfl
@[simp] theorem modPart_hostOut (p : Nat) (f : Part → Part) : (s.modPart p f).hostOut = s.hostOut := rfl

/-! `setQueue` -/

@[simp] theorem setQueue_clock (q : Nat) (x : Queue) : (s.setQueue q x).clock = s.clock := rfl
@[simp] theorem setQueue_stepNo (q : Nat) (x : Queue) : (s.setQueue q x).stepNo = s.stepNo := rfl
@[simp] theorem setQueue_agenda (q : Nat) (x : Queue) : (s.setQueue q x).agenda = s.agenda := rfl
@[simp] theorem setQueue_cur (q : Nat) (x : Queue) : (s.setQueue q x).cur = s.cur := rfl
@[simp] theorem setQueue_warps (q : Nat) (x : Queue) : (s.setQueue q x).warps = s.warps := rfl
@[simp] theorem setQueue_teams (q : Nat) (x : Queue) : (s.setQueue q x).teams = s.teams := rfl
@[simp] theorem setQueue_grids (q : Nat) (x : Queue) : (s.setQueue q x).grids = s.grids := rfl
@[simp] theorem setQueue_nextTeam (q : Nat) (x : Queue) : (s.setQueue q x).nextTeam = s.nextTeam := rfl
@[simp] theorem setQueue_nextGrid (q : Nat) (x : Queue) : (s.setQueue q x).nextGrid = s.nextGrid := rfl
@[simp] theorem setQueue_nextHandle (q : Nat) (x : Queue) : (s.setQueue q x).nextHandle = s.nextHandle := rfl
@[simp] theorem setQueue_mem (q : Nat) (x : Queue) : (s.setQueue q x).mem = s.mem := rfl
@[simp] theorem setQueue_queues (q : Nat) (x : Queue) : (s.setQueue q x).queues = amPut Queue.reset s.queues q x := rfl
@[simp] theorem setQueue_ctxs (q : Nat) (x : Queue) : (s.setQueue q x).ctxs = s.ctxs := rfl
@[simp] theorem setQueue_parts (q : Nat) (x : Queue) : (s.setQueue q x).parts = s.parts := rfl
@[simp] theorem setQueue_host (q : Nat) (x : Queue) : (s.setQueue q x).host = s.host := rfl
@[simp] theorem setQueue_ready (q : Nat) (x : Queue) : (s.setQueue q x).ready = s.ready := rfl
@[simp] theorem setQueue_fab (q : Nat) (x : Queue) : (s.setQueue q x).fab = s.fab := rfl
@[simp] theorem setQueue_hostOut (q : Nat) (x : Queue) : (s.setQueue q x).hostOut = s.hostOut := rfl

/-! `modQueue` -/

@[simp] theorem modQueue_clock (q : Nat) (f : Queue → Queue) : (s.modQueue q f).clock = s.clock := rfl
@[simp] theorem modQueue_stepNo (q : Nat) (f : Queue → Queue) : (s.modQueue q f).stepNo = s.stepNo := rfl
@[simp] theorem modQueue_agenda (q : Nat) (f : Queue → Queue) : (s.modQueue q f).agenda = s.agenda := rfl
@[simp] theorem modQueue_cur (q : Nat) (f : Queue → Queue) : (s.modQueue q f).cur = s.cur := rfl
@[simp] theorem modQueue_warps (q : Nat) (f : Queue → Queue) : (s.modQueue q f).warps = s.warps := rfl
@[simp] theorem modQueue_teams (q : Nat) (f : Queue → Queue) : (s.modQueue q f).teams = s.teams := rfl
@[simp] theorem modQueue_grids (q : Nat) (f : Queue → Queue) : (s.modQueue q f).grids = s.grids := rfl
@[simp] theorem modQueue_nextTeam (q : Nat) (f : Queue → Queue) : (s.modQueue q f).nextTeam = s.nextTeam := rfl
@[simp] theorem modQueue_nextGrid (q : Nat) (f : Queue → Queue) : (s.modQueue q f).nextGrid = s.nextGrid := rfl
@[simp] theorem modQueue_nextHandle (q : Nat) (f : Queue → Queue) : (s.modQueue q f).nextHandle = s.nextHandle := rfl
@[simp] theorem modQueue_mem (q : Nat) (f : Queue → Queue) : (s.modQueue q f).mem = s.mem := rfl
@[simp] theorem modQueue_queues (q : Nat) (f : Queue → Queue) : (s.modQueue q f).queues = amPut Queue.reset s.queues q (f (s.queue q)) := rfl
@[simp] theorem modQueue_ctxs (q : Nat) (f : Queue → Queue) : (s.modQueue q f).ctxs = s.ctxs := rfl
@[simp] theorem modQueue_parts (q : Nat) (f : Queue → Queue) : (s.modQueue q f).parts = s.parts := rfl
@[simp] theorem modQueue_host (q : Nat) (f : Queue → Queue) : (s.modQueue q f).host = s.host := rfl
@[simp] theorem modQueue_ready (q : Nat) (f : Queue → Queue) : (s.modQueue q f).ready = s.ready := rfl
@[simp] theorem modQueue_fab (q : Nat) (f : Queue → Queue) : (s.modQueue q f).fab = s.fab := rfl
@[simp] theorem modQueue_hostOut (q : Nat) (f : Queue → Queue) : (s.modQueue q f).hostOut = s.hostOut := rfl

/-! `setMem` -/

@[simp] theorem setMem_clock (m : Mem) : (s.setMem m).clock = s.clock := rfl
@[simp] theorem setMem_stepNo (m : Mem) : (s.setMem m).stepNo = s.stepNo := rfl
@[simp] theorem setMem_agenda (m : Mem) : (s.setMem m).agenda = s.agenda := rfl
@[simp] theorem setMem_cur (m : Mem) : (s.setMem m).cur = s.cur := rfl
@[simp] theorem setMem_warps (m : Mem) : (s.setMem m).warps = s.warps := rfl
@[simp] theorem setMem_teams (m : Mem) : (s.setMem m).teams = s.teams := rfl
@[simp] theorem setMem_grids (m : Mem) : (s.setMem m).grids = s.grids := rfl
@[simp] theorem setMem_nextTeam (m : Mem) : (s.setMem m).nextTeam = s.nextTeam := rfl
@[simp] theorem setMem_nextGrid (m : Mem) : (s.setMem m).nextGrid = s.nextGrid := rfl
@[simp] theorem setMem_nextHandle (m : Mem) : (s.setMem m).nextHandle = s.nextHandle := rfl
@[simp] theorem setMem_mem (m : Mem) : (s.setMem m).mem = m := rfl
@[simp] theorem setMem_queues (m : Mem) : (s.setMem m).queues = s.queues := rfl
@[simp] theorem setMem_ctxs (m : Mem) : (s.setMem m).ctxs = s.ctxs := rfl
@[simp] theorem setMem_parts (m : Mem) : (s.setMem m).parts = s.parts := rfl
@[simp] theorem setMem_host (m : Mem) : (s.setMem m).host = s.host := rfl
@[simp] theorem setMem_ready (m : Mem) : (s.setMem m).ready = s.ready := rfl
@[simp] theorem setMem_fab (m : Mem) : (s.setMem m).fab = s.fab := rfl
@[simp] theorem setMem_hostOut (m : Mem) : (s.setMem m).hostOut = s.hostOut := rfl

/-! `modMem` -/

@[simp] theorem modMem_clock (f : Mem → Mem) : (s.modMem f).clock = s.clock := rfl
@[simp] theorem modMem_stepNo (f : Mem → Mem) : (s.modMem f).stepNo = s.stepNo := rfl
@[simp] theorem modMem_agenda (f : Mem → Mem) : (s.modMem f).agenda = s.agenda := rfl
@[simp] theorem modMem_cur (f : Mem → Mem) : (s.modMem f).cur = s.cur := rfl
@[simp] theorem modMem_warps (f : Mem → Mem) : (s.modMem f).warps = s.warps := rfl
@[simp] theorem modMem_teams (f : Mem → Mem) : (s.modMem f).teams = s.teams := rfl
@[simp] theorem modMem_grids (f : Mem → Mem) : (s.modMem f).grids = s.grids := rfl
@[simp] theorem modMem_nextTeam (f : Mem → Mem) : (s.modMem f).nextTeam = s.nextTeam := rfl
@[simp] theorem modMem_nextGrid (f : Mem → Mem) : (s.modMem f).nextGrid = s.nextGrid := rfl
@[simp] theorem modMem_nextHandle (f : Mem → Mem) : (s.modMem f).nextHandle = s.nextHandle := rfl
@[simp] theorem modMem_mem (f : Mem → Mem) : (s.modMem f).mem = f s.mem := rfl
@[simp] theorem modMem_queues (f : Mem → Mem) : (s.modMem f).queues = s.queues := rfl
@[simp] theorem modMem_ctxs (f : Mem → Mem) : (s.modMem f).ctxs = s.ctxs := rfl
@[simp] theorem modMem_parts (f : Mem → Mem) : (s.modMem f).parts = s.parts := rfl
@[simp] theorem modMem_host (f : Mem → Mem) : (s.modMem f).host = s.host := rfl
@[simp] theorem modMem_ready (f : Mem → Mem) : (s.modMem f).ready = s.ready := rfl
@[simp] theorem modMem_fab (f : Mem → Mem) : (s.modMem f).fab = s.fab := rfl
@[simp] theorem modMem_hostOut (f : Mem → Mem) : (s.modMem f).hostOut = s.hostOut := rfl

/-! `setFab` -/

@[simp] theorem setFab_clock (f : Fabric) : (s.setFab f).clock = s.clock := rfl
@[simp] theorem setFab_stepNo (f : Fabric) : (s.setFab f).stepNo = s.stepNo := rfl
@[simp] theorem setFab_agenda (f : Fabric) : (s.setFab f).agenda = s.agenda := rfl
@[simp] theorem setFab_cur (f : Fabric) : (s.setFab f).cur = s.cur := rfl
@[simp] theorem setFab_warps (f : Fabric) : (s.setFab f).warps = s.warps := rfl
@[simp] theorem setFab_teams (f : Fabric) : (s.setFab f).teams = s.teams := rfl
@[simp] theorem setFab_grids (f : Fabric) : (s.setFab f).grids = s.grids := rfl
@[simp] theorem setFab_nextTeam (f : Fabric) : (s.setFab f).nextTeam = s.nextTeam := rfl
@[simp] theorem setFab_nextGrid (f : Fabric) : (s.setFab f).nextGrid = s.nextGrid := rfl
@[simp] theorem setFab_nextHandle (f : Fabric) : (s.setFab f).nextHandle = s.nextHandle := rfl
@[simp] theorem setFab_mem (f : Fabric) : (s.setFab f).mem = s.mem := rfl
@[simp] theorem setFab_queues (f : Fabric) : (s.setFab f).queues = s.queues := rfl
@[simp] theorem setFab_ctxs (f : Fabric) : (s.setFab f).ctxs = s.ctxs := rfl
@[simp] theorem setFab_parts (f : Fabric) : (s.setFab f).parts = s.parts := rfl
@[simp] theorem setFab_host (f : Fabric) : (s.setFab f).host = s.host := rfl
@[simp] theorem setFab_ready (f : Fabric) : (s.setFab f).ready = s.ready := rfl
@[simp] theorem setFab_fab (f : Fabric) : (s.setFab f).fab = f := rfl
@[simp] theorem setFab_hostOut (f : Fabric) : (s.setFab f).hostOut = s.hostOut := rfl

/-! `modFab` -/

@[simp] theorem modFab_clock (f : Fabric → Fabric) : (s.modFab f).clock = s.clock := rfl
@[simp] theorem modFab_stepNo (f : Fabric → Fabric) : (s.modFab f).stepNo = s.stepNo := rfl
@[simp] theorem modFab_agenda (f : Fabric → Fabric) : (s.modFab f).agenda = s.agenda := rfl
@[simp] theorem modFab_cur (f : Fabric → Fabric) : (s.modFab f).cur = s.cur := rfl
@[simp] theorem modFab_warps (f : Fabric → Fabric) : (s.modFab f).warps = s.warps := rfl
@[simp] theorem modFab_teams (f : Fabric → Fabric) : (s.modFab f).teams = s.teams := rfl
@[simp] theorem modFab_grids (f : Fabric → Fabric) : (s.modFab f).grids = s.grids := rfl
@[simp] theorem modFab_nextTeam (f : Fabric → Fabric) : (s.modFab f).nextTeam = s.nextTeam := rfl
@[simp] theorem modFab_nextGrid (f : Fabric → Fabric) : (s.modFab f).nextGrid = s.nextGrid := rfl
@[simp] theorem modFab_nextHandle (f : Fabric → Fabric) : (s.modFab f).nextHandle = s.nextHandle := rfl
@[simp] theorem modFab_mem (f : Fabric → Fabric) : (s.modFab f).mem = s.mem := rfl
@[simp] theorem modFab_queues (f : Fabric → Fabric) : (s.modFab f).queues = s.queues := rfl
@[simp] theorem modFab_ctxs (f : Fabric → Fabric) : (s.modFab f).ctxs = s.ctxs := rfl
@[simp] theorem modFab_parts (f : Fabric → Fabric) : (s.modFab f).parts = s.parts := rfl
@[simp] theorem modFab_host (f : Fabric → Fabric) : (s.modFab f).host = s.host := rfl
@[simp] theorem modFab_ready (f : Fabric → Fabric) : (s.modFab f).ready = s.ready := rfl
@[simp] theorem modFab_fab (f : Fabric → Fabric) : (s.modFab f).fab = f s.fab := rfl
@[simp] theorem modFab_hostOut (f : Fabric → Fabric) : (s.modFab f).hostOut = s.hostOut := rfl

/-! `setHost` -/

@[simp] theorem setHost_clock (h : HostRegs) : (s.setHost h).clock = s.clock := rfl
@[simp] theorem setHost_stepNo (h : HostRegs) : (s.setHost h).stepNo = s.stepNo := rfl
@[simp] theorem setHost_agenda (h : HostRegs) : (s.setHost h).agenda = s.agenda := rfl
@[simp] theorem setHost_cur (h : HostRegs) : (s.setHost h).cur = s.cur := rfl
@[simp] theorem setHost_warps (h : HostRegs) : (s.setHost h).warps = s.warps := rfl
@[simp] theorem setHost_teams (h : HostRegs) : (s.setHost h).teams = s.teams := rfl
@[simp] theorem setHost_grids (h : HostRegs) : (s.setHost h).grids = s.grids := rfl
@[simp] theorem setHost_nextTeam (h : HostRegs) : (s.setHost h).nextTeam = s.nextTeam := rfl
@[simp] theorem setHost_nextGrid (h : HostRegs) : (s.setHost h).nextGrid = s.nextGrid := rfl
@[simp] theorem setHost_nextHandle (h : HostRegs) : (s.setHost h).nextHandle = s.nextHandle := rfl
@[simp] theorem setHost_mem (h : HostRegs) : (s.setHost h).mem = s.mem := rfl
@[simp] theorem setHost_queues (h : HostRegs) : (s.setHost h).queues = s.queues := rfl
@[simp] theorem setHost_ctxs (h : HostRegs) : (s.setHost h).ctxs = s.ctxs := rfl
@[simp] theorem setHost_parts (h : HostRegs) : (s.setHost h).parts = s.parts := rfl
@[simp] theorem setHost_host (h : HostRegs) : (s.setHost h).host = h := rfl
@[simp] theorem setHost_ready (h : HostRegs) : (s.setHost h).ready = s.ready := rfl
@[simp] theorem setHost_fab (h : HostRegs) : (s.setHost h).fab = s.fab := rfl
@[simp] theorem setHost_hostOut (h : HostRegs) : (s.setHost h).hostOut = s.hostOut := rfl

/-! `modHost` -/

@[simp] theorem modHost_clock (f : HostRegs → HostRegs) : (s.modHost f).clock = s.clock := rfl
@[simp] theorem modHost_stepNo (f : HostRegs → HostRegs) : (s.modHost f).stepNo = s.stepNo := rfl
@[simp] theorem modHost_agenda (f : HostRegs → HostRegs) : (s.modHost f).agenda = s.agenda := rfl
@[simp] theorem modHost_cur (f : HostRegs → HostRegs) : (s.modHost f).cur = s.cur := rfl
@[simp] theorem modHost_warps (f : HostRegs → HostRegs) : (s.modHost f).warps = s.warps := rfl
@[simp] theorem modHost_teams (f : HostRegs → HostRegs) : (s.modHost f).teams = s.teams := rfl
@[simp] theorem modHost_grids (f : HostRegs → HostRegs) : (s.modHost f).grids = s.grids := rfl
@[simp] theorem modHost_nextTeam (f : HostRegs → HostRegs) : (s.modHost f).nextTeam = s.nextTeam := rfl
@[simp] theorem modHost_nextGrid (f : HostRegs → HostRegs) : (s.modHost f).nextGrid = s.nextGrid := rfl
@[simp] theorem modHost_nextHandle (f : HostRegs → HostRegs) : (s.modHost f).nextHandle = s.nextHandle := rfl
@[simp] theorem modHost_mem (f : HostRegs → HostRegs) : (s.modHost f).mem = s.mem := rfl
@[simp] theorem modHost_queues (f : HostRegs → HostRegs) : (s.modHost f).queues = s.queues := rfl
@[simp] theorem modHost_ctxs (f : HostRegs → HostRegs) : (s.modHost f).ctxs = s.ctxs := rfl
@[simp] theorem modHost_parts (f : HostRegs → HostRegs) : (s.modHost f).parts = s.parts := rfl
@[simp] theorem modHost_host (f : HostRegs → HostRegs) : (s.modHost f).host = f s.host := rfl
@[simp] theorem modHost_ready (f : HostRegs → HostRegs) : (s.modHost f).ready = s.ready := rfl
@[simp] theorem modHost_fab (f : HostRegs → HostRegs) : (s.modHost f).fab = s.fab := rfl
@[simp] theorem modHost_hostOut (f : HostRegs → HostRegs) : (s.modHost f).hostOut = s.hostOut := rfl

/-! `setCur` -/

@[simp] theorem setCur_clock (w : Option WarpId) : (s.setCur w).clock = s.clock := rfl
@[simp] theorem setCur_stepNo (w : Option WarpId) : (s.setCur w).stepNo = s.stepNo := rfl
@[simp] theorem setCur_agenda (w : Option WarpId) : (s.setCur w).agenda = s.agenda := rfl
@[simp] theorem setCur_cur (w : Option WarpId) : (s.setCur w).cur = w := rfl
@[simp] theorem setCur_warps (w : Option WarpId) : (s.setCur w).warps = s.warps := rfl
@[simp] theorem setCur_teams (w : Option WarpId) : (s.setCur w).teams = s.teams := rfl
@[simp] theorem setCur_grids (w : Option WarpId) : (s.setCur w).grids = s.grids := rfl
@[simp] theorem setCur_nextTeam (w : Option WarpId) : (s.setCur w).nextTeam = s.nextTeam := rfl
@[simp] theorem setCur_nextGrid (w : Option WarpId) : (s.setCur w).nextGrid = s.nextGrid := rfl
@[simp] theorem setCur_nextHandle (w : Option WarpId) : (s.setCur w).nextHandle = s.nextHandle := rfl
@[simp] theorem setCur_mem (w : Option WarpId) : (s.setCur w).mem = s.mem := rfl
@[simp] theorem setCur_queues (w : Option WarpId) : (s.setCur w).queues = s.queues := rfl
@[simp] theorem setCur_ctxs (w : Option WarpId) : (s.setCur w).ctxs = s.ctxs := rfl
@[simp] theorem setCur_parts (w : Option WarpId) : (s.setCur w).parts = s.parts := rfl
@[simp] theorem setCur_host (w : Option WarpId) : (s.setCur w).host = s.host := rfl
@[simp] theorem setCur_ready (w : Option WarpId) : (s.setCur w).ready = s.ready := rfl
@[simp] theorem setCur_fab (w : Option WarpId) : (s.setCur w).fab = s.fab := rfl
@[simp] theorem setCur_hostOut (w : Option WarpId) : (s.setCur w).hostOut = s.hostOut := rfl

/-! `setAgenda` -/

@[simp] theorem setAgenda_clock (l : List Action) : (s.setAgenda l).clock = s.clock := rfl
@[simp] theorem setAgenda_stepNo (l : List Action) : (s.setAgenda l).stepNo = s.stepNo := rfl
@[simp] theorem setAgenda_agenda (l : List Action) : (s.setAgenda l).agenda = l := rfl
@[simp] theorem setAgenda_cur (l : List Action) : (s.setAgenda l).cur = s.cur := rfl
@[simp] theorem setAgenda_warps (l : List Action) : (s.setAgenda l).warps = s.warps := rfl
@[simp] theorem setAgenda_teams (l : List Action) : (s.setAgenda l).teams = s.teams := rfl
@[simp] theorem setAgenda_grids (l : List Action) : (s.setAgenda l).grids = s.grids := rfl
@[simp] theorem setAgenda_nextTeam (l : List Action) : (s.setAgenda l).nextTeam = s.nextTeam := rfl
@[simp] theorem setAgenda_nextGrid (l : List Action) : (s.setAgenda l).nextGrid = s.nextGrid := rfl
@[simp] theorem setAgenda_nextHandle (l : List Action) : (s.setAgenda l).nextHandle = s.nextHandle := rfl
@[simp] theorem setAgenda_mem (l : List Action) : (s.setAgenda l).mem = s.mem := rfl
@[simp] theorem setAgenda_queues (l : List Action) : (s.setAgenda l).queues = s.queues := rfl
@[simp] theorem setAgenda_ctxs (l : List Action) : (s.setAgenda l).ctxs = s.ctxs := rfl
@[simp] theorem setAgenda_parts (l : List Action) : (s.setAgenda l).parts = s.parts := rfl
@[simp] theorem setAgenda_host (l : List Action) : (s.setAgenda l).host = s.host := rfl
@[simp] theorem setAgenda_ready (l : List Action) : (s.setAgenda l).ready = s.ready := rfl
@[simp] theorem setAgenda_fab (l : List Action) : (s.setAgenda l).fab = s.fab := rfl
@[simp] theorem setAgenda_hostOut (l : List Action) : (s.setAgenda l).hostOut = s.hostOut := rfl

/-! `setReady` -/

@[simp] theorem setReady_clock (r : Ready) : (s.setReady r).clock = s.clock := rfl
@[simp] theorem setReady_stepNo (r : Ready) : (s.setReady r).stepNo = s.stepNo := rfl
@[simp] theorem setReady_agenda (r : Ready) : (s.setReady r).agenda = s.agenda := rfl
@[simp] theorem setReady_cur (r : Ready) : (s.setReady r).cur = s.cur := rfl
@[simp] theorem setReady_warps (r : Ready) : (s.setReady r).warps = s.warps := rfl
@[simp] theorem setReady_teams (r : Ready) : (s.setReady r).teams = s.teams := rfl
@[simp] theorem setReady_grids (r : Ready) : (s.setReady r).grids = s.grids := rfl
@[simp] theorem setReady_nextTeam (r : Ready) : (s.setReady r).nextTeam = s.nextTeam := rfl
@[simp] theorem setReady_nextGrid (r : Ready) : (s.setReady r).nextGrid = s.nextGrid := rfl
@[simp] theorem setReady_nextHandle (r : Ready) : (s.setReady r).nextHandle = s.nextHandle := rfl
@[simp] theorem setReady_mem (r : Ready) : (s.setReady r).mem = s.mem := rfl
@[simp] theorem setReady_queues (r : Ready) : (s.setReady r).queues = s.queues := rfl
@[simp] theorem setReady_ctxs (r : Ready) : (s.setReady r).ctxs = s.ctxs := rfl
@[simp] theorem setReady_parts (r : Ready) : (s.setReady r).parts = s.parts := rfl
@[simp] theorem setReady_host (r : Ready) : (s.setReady r).host = s.host := rfl
@[simp] theorem setReady_ready (r : Ready) : (s.setReady r).ready = r := rfl
@[simp] theorem setReady_fab (r : Ready) : (s.setReady r).fab = s.fab := rfl
@[simp] theorem setReady_hostOut (r : Ready) : (s.setReady r).hostOut = s.hostOut := rfl

/-! `setCore` -/

@[simp] theorem setCore_clock (c : Nat) (x : CoreSt) : (s.setCore c x).clock = s.clock := rfl
@[simp] theorem setCore_stepNo (c : Nat) (x : CoreSt) : (s.setCore c x).stepNo = s.stepNo := rfl
@[simp] theorem setCore_agenda (c : Nat) (x : CoreSt) : (s.setCore c x).agenda = s.agenda := rfl
@[simp] theorem setCore_cur (c : Nat) (x : CoreSt) : (s.setCore c x).cur = s.cur := rfl
@[simp] theorem setCore_warps (c : Nat) (x : CoreSt) : (s.setCore c x).warps = s.warps := rfl
@[simp] theorem setCore_teams (c : Nat) (x : CoreSt) : (s.setCore c x).teams = s.teams := rfl
@[simp] theorem setCore_grids (c : Nat) (x : CoreSt) : (s.setCore c x).grids = s.grids := rfl
@[simp] theorem setCore_nextTeam (c : Nat) (x : CoreSt) : (s.setCore c x).nextTeam = s.nextTeam := rfl
@[simp] theorem setCore_nextGrid (c : Nat) (x : CoreSt) : (s.setCore c x).nextGrid = s.nextGrid := rfl
@[simp] theorem setCore_nextHandle (c : Nat) (x : CoreSt) : (s.setCore c x).nextHandle = s.nextHandle := rfl
@[simp] theorem setCore_mem (c : Nat) (x : CoreSt) : (s.setCore c x).mem = { s.mem with cores := amPut CoreSt.reset s.mem.cores c x } := rfl
@[simp] theorem setCore_queues (c : Nat) (x : CoreSt) : (s.setCore c x).queues = s.queues := rfl
@[simp] theorem setCore_ctxs (c : Nat) (x : CoreSt) : (s.setCore c x).ctxs = s.ctxs := rfl
@[simp] theorem setCore_parts (c : Nat) (x : CoreSt) : (s.setCore c x).parts = s.parts := rfl
@[simp] theorem setCore_host (c : Nat) (x : CoreSt) : (s.setCore c x).host = s.host := rfl
@[simp] theorem setCore_ready (c : Nat) (x : CoreSt) : (s.setCore c x).ready = s.ready := rfl
@[simp] theorem setCore_fab (c : Nat) (x : CoreSt) : (s.setCore c x).fab = s.fab := rfl
@[simp] theorem setCore_hostOut (c : Nat) (x : CoreSt) : (s.setCore c x).hostOut = s.hostOut := rfl

/-! `modCore` -/

@[simp] theorem modCore_clock (c : Nat) (f : CoreSt → CoreSt) : (s.modCore c f).clock = s.clock := rfl
@[simp] theorem modCore_stepNo (c : Nat) (f : CoreSt → CoreSt) : (s.modCore c f).stepNo = s.stepNo := rfl
@[simp] theorem modCore_agenda (c : Nat) (f : CoreSt → CoreSt) : (s.modCore c f).agenda = s.agenda := rfl
@[simp] theorem modCore_cur (c : Nat) (f : CoreSt → CoreSt) : (s.modCore c f).cur = s.cur := rfl
@[simp] theorem modCore_warps (c : Nat) (f : CoreSt → CoreSt) : (s.modCore c f).warps = s.warps := rfl
@[simp] theorem modCore_teams (c : Nat) (f : CoreSt → CoreSt) : (s.modCore c f).teams = s.teams := rfl
@[simp] theorem modCore_grids (c : Nat) (f : CoreSt → CoreSt) : (s.modCore c f).grids = s.grids := rfl
@[simp] theorem modCore_nextTeam (c : Nat) (f : CoreSt → CoreSt) : (s.modCore c f).nextTeam = s.nextTeam := rfl
@[simp] theorem modCore_nextGrid (c : Nat) (f : CoreSt → CoreSt) : (s.modCore c f).nextGrid = s.nextGrid := rfl
@[simp] theorem modCore_nextHandle (c : Nat) (f : CoreSt → CoreSt) : (s.modCore c f).nextHandle = s.nextHandle := rfl
@[simp] theorem modCore_mem (c : Nat) (f : CoreSt → CoreSt) : (s.modCore c f).mem = { s.mem with cores := amPut CoreSt.reset s.mem.cores c (f (s.core c)) } := rfl
@[simp] theorem modCore_queues (c : Nat) (f : CoreSt → CoreSt) : (s.modCore c f).queues = s.queues := rfl
@[simp] theorem modCore_ctxs (c : Nat) (f : CoreSt → CoreSt) : (s.modCore c f).ctxs = s.ctxs := rfl
@[simp] theorem modCore_parts (c : Nat) (f : CoreSt → CoreSt) : (s.modCore c f).parts = s.parts := rfl
@[simp] theorem modCore_host (c : Nat) (f : CoreSt → CoreSt) : (s.modCore c f).host = s.host := rfl
@[simp] theorem modCore_ready (c : Nat) (f : CoreSt → CoreSt) : (s.modCore c f).ready = s.ready := rfl
@[simp] theorem modCore_fab (c : Nat) (f : CoreSt → CoreSt) : (s.modCore c f).fab = s.fab := rfl
@[simp] theorem modCore_hostOut (c : Nat) (f : CoreSt → CoreSt) : (s.modCore c f).hostOut = s.hostOut := rfl

/-! `emit` -/

@[simp] theorem emit_clock (o : HostOut) : (s.emit o).clock = s.clock := rfl
@[simp] theorem emit_stepNo (o : HostOut) : (s.emit o).stepNo = s.stepNo := rfl
@[simp] theorem emit_agenda (o : HostOut) : (s.emit o).agenda = s.agenda := rfl
@[simp] theorem emit_cur (o : HostOut) : (s.emit o).cur = s.cur := rfl
@[simp] theorem emit_warps (o : HostOut) : (s.emit o).warps = s.warps := rfl
@[simp] theorem emit_teams (o : HostOut) : (s.emit o).teams = s.teams := rfl
@[simp] theorem emit_grids (o : HostOut) : (s.emit o).grids = s.grids := rfl
@[simp] theorem emit_nextTeam (o : HostOut) : (s.emit o).nextTeam = s.nextTeam := rfl
@[simp] theorem emit_nextGrid (o : HostOut) : (s.emit o).nextGrid = s.nextGrid := rfl
@[simp] theorem emit_nextHandle (o : HostOut) : (s.emit o).nextHandle = s.nextHandle := rfl
@[simp] theorem emit_mem (o : HostOut) : (s.emit o).mem = s.mem := rfl
@[simp] theorem emit_queues (o : HostOut) : (s.emit o).queues = s.queues := rfl
@[simp] theorem emit_ctxs (o : HostOut) : (s.emit o).ctxs = s.ctxs := rfl
@[simp] theorem emit_parts (o : HostOut) : (s.emit o).parts = s.parts := rfl
@[simp] theorem emit_host (o : HostOut) : (s.emit o).host = s.host := rfl
@[simp] theorem emit_ready (o : HostOut) : (s.emit o).ready = s.ready := rfl
@[simp] theorem emit_fab (o : HostOut) : (s.emit o).fab = s.fab := rfl
@[simp] theorem emit_hostOut (o : HostOut) : (s.emit o).hostOut = s.hostOut ++ [o] := rfl

/-! Reading after writing -/

theorem wkey_inj {v w : WarpId} (hv : v.widx < 64) (hw : w.widx < 64) : wkey v = wkey w ↔ v = w := by
  obtain ⟨a, b⟩ := v
  obtain ⟨c, d⟩ := w
  simp only [wkey, WarpId.mk.injEq] at *
  constructor
  · intro h; omega
  · rintro ⟨rfl, rfl⟩; rfl

@[simp] theorem warp?_setWarp_self (w : WarpId) (x : Warp) : (s.setWarp w x).warp? w = some x := by simp [warp?]

theorem warp?_setWarp (v w : WarpId) (x : Warp) :
    (s.setWarp w x).warp? v = if wkey v = wkey w then some x else s.warp? v := by simp [warp?, amFind_amSet]

theorem warp?_modWarp (v w : WarpId) (f : Warp → Warp) :
    (s.modWarp w f).warp? v = if wkey v = wkey w then (s.warp? w).map f else s.warp? v := by simp [warp?, amFind_amMod]

@[simp] theorem setWarp_setWarp (w : WarpId) (x y : Warp) : (s.setWarp w x).setWarp w y = s.setWarp w y := by
  simp [setWarp]

@[simp] theorem modWarp_setWarp (w : WarpId) (x : Warp) (f : Warp → Warp) :
    (s.setWarp w x).modWarp w f = s.setWarp w (f x) := by simp [setWarp, modWarp]

theorem modWarp_eq {w : WarpId} {x : Warp} (f : Warp → Warp) (h : s.warp? w = some x) : s.modWarp w f = s.setWarp w (f x) := by
  simp [setWarp, modWarp, amMod_eq _ _ _ (show amFind s.warps (wkey w) = some x from h)]

@[simp] theorem team?_setTeam_self (t : Nat) (x : Team) : (s.setTeam t x).team? t = some x := by simp [team?]

theorem team?_modTeam (t u : Nat) (f : Team → Team) :
    (s.modTeam t f).team? u = if u = t then (s.team? t).map f else s.team? u := by simp [team?, amFind_amMod]

@[simp] theorem team?_setWarp (w : WarpId) (x : Warp) (t : Nat) : (s.setWarp w x).team? t = s.team? t := rfl
@[simp] theorem gridOf?_setWarp (w : WarpId) (x : Warp) (t : Nat) : (s.setWarp w x).gridOf? t = s.gridOf? t := rfl
@[simp] theorem ctxOf_setWarp (w : WarpId) (x : Warp) (t : Nat) : (s.setWarp w x).ctxOf t = s.ctxOf t := rfl
@[simp] theorem partOf_setWarp (w : WarpId) (x : Warp) (t : Nat) : (s.setWarp w x).partOf t = s.partOf t := rfl
@[simp] theorem isSys_setWarp (w : WarpId) (x : Warp) (t : Nat) : (s.setWarp w x).isSys t = s.isSys t := rfl
@[simp] theorem ctx_setWarp (w : WarpId) (x : Warp) (c : Nat) : (s.setWarp w x).ctx c = s.ctx c := rfl
@[simp] theorem part_setWarp (w : WarpId) (x : Warp) (p : Nat) : (s.setWarp w x).part p = s.part p := rfl
@[simp] theorem core_setWarp (w : WarpId) (x : Warp) (c : Nat) : (s.setWarp w x).core c = s.core c := rfl

end Sys2Proof.Machine.State
end

