-- ==== Sys2Proof/Laws/Issue.lean ====
section
/-! SUPPORT. What the dispatch of an instruction comes to: it runs as the oldest of its warp, or it reports the fault of a
failed check, or its active mask is empty; and what the end of a clause leaves alone. -/

namespace Sys2Proof.Machine

open State

variable {s s2 : State} {w : WarpId} {x : Warp} {c : Cursor} {i : Instr} {body : Body} {k : Kind}

/-! ### Dispatch -/

theorem pushEntry_eq (s : State) (w : WarpId) (x : Warp) (c : Cursor) (i : Instr) :
    s.pushEntry w x c i .none = (entryAt x c i, s.dispatched w x c i) := rfl

@[simp] theorem warp?_dispatched (s : State) (w : WarpId) (x : Warp) (c : Cursor) (i : Instr) :
    (s.dispatched w x c i).warp? w = some (x.pushed c i) := by simp [State.dispatched]

@[simp] theorem guardMask_pushed (x : Warp) (c : Cursor) (i : Instr) (g : Guard) :
    (x.pushed c i).guardMask g = x.guardMask g := rfl

@[simp] theorem reg_pushed (x : Warp) (c : Cursor) (i : Instr) (n : Nat) : (x.pushed c i).reg n = x.reg n := rfl

@[simp] theorem pred_pushed (x : Warp) (c : Cursor) (i : Instr) (n : Nat) : (x.pushed c i).pred n = x.pred n := rfl

theorem opsReady_dispatched (s : State) (w : WarpId) (x y : Warp) (c : Cursor) (i j : Instr) (l : List WEntry) (m : Mask) :
    (s.dispatched w x c i).opsReady w y l j m = s.opsReady w y l j m := rfl

/-- The oldest instruction of a warp, its operands ready, goes to its body at once. -/
theorem issue_oldest (h : Oldest s w x c i) (k : Kind) (body : Body) :
    issue k i body s = .next (((s.dispatched w x c i).runHead w (entryAt x c i) body).endClause w) := by
  obtain ⟨⟨hc, hw, hp, hf, hl, hr⟩, ha, ho⟩ := h
  simp only [issue, hc, hw, hp, hf, hl, hr, ha, pushEntry_eq, opsReady_dispatched, ho]
  simp

/-- A body that completes in every active lane: the instruction retires. -/
theorem runHead_done (hm : activeMask x c i ≠ 0)
    (hb : body w (entryAt x c i) (activeMask x c i) (s.dispatched w x c i) = .done s2) :
    (s.dispatched w x c i).runHead w (entryAt x c i) body = ((s2.retire w (entryAt x c i)).checkExit w) := by
  have hm' : (entryAt x c i).mask &&& (x.pushed c i).guardMask (guardOf (entryAt x c i).instr) = activeMask x c i := rfl
  simp only [State.runHead, warp?_dispatched, hm', hm, if_false, hb]

/-- A body that reports a fault. -/
theorem runHead_trap {t : Trap} (hm : activeMask x c i ≠ 0)
    (hb : body w (entryAt x c i) (activeMask x c i) (s.dispatched w x c i) = .trap s2 t false) :
    (s.dispatched w x c i).runHead w (entryAt x c i) body =
      (((s2.uncount w i).modWarp w fun x => { x with window := x.window.drop 1 }).takeTrap w countersOf
        (posOf (entryAt x c i) (activeMask x c i)) t) := by
  have hm' : (entryAt x c i).mask &&& (x.pushed c i).guardMask (guardOf (entryAt x c i).instr) = activeMask x c i := rfl
  simp only [State.runHead, warp?_dispatched, hm', hm, if_false, hb, Bool.and_false, Bool.false_eq_true]
  rfl

/-- A body that must wait, with no lane begun, stays in the window. -/
theorem runHead_wait (hm : activeMask x c i ≠ 0)
    (hb : body w (entryAt x c i) (activeMask x c i) (s.dispatched w x c i) = .wait s2)
    (hn : s2.begun w (entryAt x c i) = false) :
    (s.dispatched w x c i).runHead w (entryAt x c i) body = s2 := by
  have hm' : (entryAt x c i).mask &&& (x.pushed c i).guardMask (guardOf (entryAt x c i).instr) = activeMask x c i := rfl
  simp only [State.runHead, warp?_dispatched, hm', hm, if_false, hb, hn, Bool.and_false, Bool.false_eq_true]

/-! ### Retirement -/

/-- Retiring an instruction that counts nothing. -/
theorem retire_eq {y : Warp} {e : WEntry} (hw : s.warp? w = some y) (hi : countersOf e.instr = []) :
    s.retire w e = s.setWarp w (y.retired s.clock) := by
  simp [State.retire, State.leave, modWarp_eq s _ hw, hi, Warp.retired]

/-- A warp inside a clause does not exit. -/
theorem checkExit_eq {y : Warp} (hw : s.warp? w = some y) (hc : y.cursor.isSome) : s.checkExit w = s := by
  simp only [State.checkExit, hw]
  rw [if_neg]
  simp [Option.isNone_iff_eq_none, Option.isSome_iff_ne_none.1 hc]

/-- The registers, predicates and handler registers of one warp given to another. -/
def Warp.withRegs (y z : Warp) : Warp := { y with regs := z.regs, preds := z.preds, hregs := z.hregs, pend := z.pend }

/-- An instruction that counts nothing and whose body changes the registers of its warp alone: it retires, and the warp is
past it with those registers. -/
theorem issue_regs {f : Warp → Warp} (h : Oldest s w x c i) (hm : activeMask x c i ≠ 0) (hi : countersOf i = [])
    (hw : s2.warp? w = some (x.pushed c i)) (hf : f (x.pushed c i) = (x.pushed c i).withRegs (f x))
    (hb : body w (entryAt x c i) (activeMask x c i) (s.dispatched w x c i) = .done (s2.modWarp w f)) :
    issue k i body s = .next ((s2.setWarp w ((x.past c s2.clock).withRegs (f x))).endClause w) := by
  rw [issue_oldest h, runHead_done hm hb, modWarp_eq s2 f hw, retire_eq (warp?_setWarp_self _ _ _) hi, hf,
    checkExit_eq (warp?_setWarp_self _ _ _) rfl]
  simp [Warp.withRegs, Warp.past, Warp.pushed, Warp.retired, hi, h.alone]

end Sys2Proof.Machine
end

