-- ==== Sys2Proof/Laws/Reads.lean ====
section
/-! SUPPORT. Reading changes caches, translations and requests on their way, and nothing else: the laws of every read of
memory that an operand, a header or a clause word takes. -/

namespace Sys2Proof.Machine

/-- The second state differs from the first in its memory system and its fabric port alone. -/
def OnlyMem (s t : State) : Prop := ∃ m f, t = { s with mem := m, fab := f }

namespace OnlyMem

variable {s t u : State}

theorem rfl' (s : State) : OnlyMem s s := ⟨s.mem, s.fab, rfl⟩

theorem trans (h : OnlyMem s t) (k : OnlyMem t u) : OnlyMem s u := by
  obtain ⟨m, f, rfl⟩ := h
  obtain ⟨m', f', rfl⟩ := k
  exact ⟨m', f', rfl⟩

theorem setMem (h : OnlyMem s t) (m : Mem) : OnlyMem s (t.setMem m) := h.trans ⟨m, t.fab, rfl⟩
theorem setFab (h : OnlyMem s t) (f : Fabric) : OnlyMem s (t.setFab f) := h.trans ⟨t.mem, f, rfl⟩
theorem setCore (h : OnlyMem s t) (c : Nat) (x : CoreSt) : OnlyMem s (t.setCore c x) := h.setMem _
theorem modCore (h : OnlyMem s t) (c : Nat) (f : CoreSt → CoreSt) : OnlyMem s (t.modCore c f) := h.setCore _ _

theorem warps (h : OnlyMem s t) : t.warps = s.warps := by obtain ⟨m, f, rfl⟩ := h; rfl
theorem warp? (h : OnlyMem s t) (w : WarpId) : t.warp? w = s.warp? w := by obtain ⟨m, f, rfl⟩ := h; rfl
theorem teams (h : OnlyMem s t) : t.teams = s.teams := by obtain ⟨m, f, rfl⟩ := h; rfl
theorem grids (h : OnlyMem s t) : t.grids = s.grids := by obtain ⟨m, f, rfl⟩ := h; rfl
theorem clock (h : OnlyMem s t) : t.clock = s.clock := by obtain ⟨m, f, rfl⟩ := h; rfl
theorem gridOf? (h : OnlyMem s t) (k : Nat) : t.gridOf? k = s.gridOf? k := by obtain ⟨m, f, rfl⟩ := h; rfl
theorem slots (h : OnlyMem s t) (w : WarpId) : t.slots w = s.slots w := by obtain ⟨m, f, rfl⟩ := h; rfl
theorem setWarp (h : OnlyMem s t) (w : WarpId) (x : Warp) : OnlyMem (s.setWarp w x) (t.setWarp w x) := by
  obtain ⟨m, f, rfl⟩ := h; exact ⟨m, f, rfl⟩

theorem foldl {α : Type} {f : State → α → State} (l : List α) (hf : ∀ s a, OnlyMem s (f s a)) :
    ∀ s, OnlyMem s (l.foldl f s) := by
  induction l with
  | nil => exact fun s => rfl' s
  | cons a l ih => exact fun s => (hf s a).trans (ih _)

theorem foldl_snd {α β : Type} {f : β × State → α → β × State} (l : List α) (hf : ∀ p a, OnlyMem p.2 (f p a).2) :
    ∀ p, OnlyMem p.2 (l.foldl f p).2 := by
  induction l with
  | nil => exact fun p => rfl' p.2
  | cons a l ih => exact fun p => (hf p a).trans (ih _)

end OnlyMem

open OnlyMem

namespace State

theorem sliceRead_only (s : State) (line key cls : Nat) (offs : List Nat) : OnlyMem s (s.sliceRead line key cls offs).2 := by
  unfold sliceRead
  dsimp only
  split <;> exact ⟨_, s.fab, rfl⟩

theorem lineRead_only (s : State) (line key cls : Nat) (offs : List Nat) : OnlyMem s (s.lineRead line key cls offs).2 := by
  have h := sliceRead_only s line key cls offs
  unfold lineRead
  split
  · dsimp only
    split <;> exact h
  · exact rfl' s

theorem homeRead_only (s : State) (pa key cls n : Nat) : OnlyMem s (s.homeRead pa key cls n).2 := by
  unfold homeRead
  refine foldl_snd _ ?_ ([], s)
  intro p a
  exact lineRead_only p.2 a.1 key cls (a.2.2 |> List.range |>.map (a.2.1 + ·))

theorem homeNat_only (s : State) (pa key cls n : Nat) : OnlyMem s (s.homeNat pa key cls n).2 := homeRead_only ..

theorem readPte_only (s : State) (pa : Nat) : OnlyMem s (s.readPte pa).2 := homeNat_only s pa 0 0 8

theorem walk_only (s : State) (ctx va : Nat) : OnlyMem s (s.walk ctx va).2 := by
  unfold walk
  have h1 := readPte_only s ((s.ctx ctx).root + 8 * field va 45 12)
  dsimp only
  split
  · exact h1
  · split
    · exact h1
    · have h2 := h1.trans (readPte_only (s.readPte ((s.ctx ctx).root + 8 * field va 45 12)).2
        (pteAddr (s.readPte ((s.ctx ctx).root + 8 * field va 45 12)).1 * 65536 + 8 * field va 32 13))
      split
      · exact h2
      · split
        · exact h2
        · have h3 := h2.trans (readPte_only _ (pteAddr ((s.readPte ((s.ctx ctx).root + 8 * field va 45 12)).2.readPte
            (pteAddr (s.readPte ((s.ctx ctx).root + 8 * field va 45 12)).1 * 65536 + 8 * field va 32 13)).1 * 65536 +
            8 * field va 19 13))
          split
          · exact h3
          · split <;> exact h3

theorem translate_only (s : State) (c ctx va : Nat) : OnlyMem s (s.translate c ctx va).2 := by
  unfold translate
  split
  · exact rfl' s
  · dsimp only
    split
    · dsimp only
      exact (rfl' s).modCore _ _
    · have h := walk_only s ctx va
      split
      · rename_i e s' he
        rw [he] at h
        dsimp only at h ⊢
        exact (h.setMem _).modCore _ _
      · exact h

theorem xlate_only (s : State) (c ctx va : Nat) (u : Use) : OnlyMem s (s.xlate c ctx va u).2 := by
  unfold xlate
  split
  · exact rfl' s
  · have h := translate_only s c ctx va
    split
    · rename_i he; rw [he] at h; exact h
    · rename_i he; rw [he] at h; exact h
    · rename_i he
      rw [he] at h
      dsimp only
      split
      · exact h
      · split <;> exact h

theorem constWord_only (s : State) (c pa key cls : Nat) : OnlyMem s (s.constWord c pa key cls).2 := by
  unfold constWord
  split
  · exact rfl' s
  · have h := homeRead_only s pa key cls 4
    generalize s.homeRead pa key cls 4 = p at h ⊢
    dsimp only
    exact h.modCore _ _

theorem codeWord_only (s : State) (c pa key cls : Nat) : OnlyMem s (s.codeWord c pa key cls).2 := by
  unfold codeWord
  split
  · exact rfl' s
  · have h := homeNat_only s pa key cls 8
    generalize s.homeNat pa key cls 8 = p at h ⊢
    dsimp only
    exact h.modCore _ _

theorem queuePacket_only (s : State) (p : Packet) : OnlyMem s (s.queuePacket p) := (rfl' s).setFab _

theorem sendFree_only (s : State) (p : Packet) : OnlyMem s (s.sendFree p) := queuePacket_only ..

/-- A read of another package for a cache. -/
theorem fetchRemote_only (s : State) (c fid addr key : Nat) (who : Option WarpId) :
    OnlyMem s (s.fetchRemote c fid addr key who) := by
  unfold fetchRemote
  dsimp only
  split
  · exact (rfl' s).setFab _
  · simp only [sendReq, bareReq, Option.getD_some]
    exact ((rfl' s).setFab _).trans (queuePacket_only ..)

theorem fetchWord_only (s : State) (w : WarpId) (va : Nat) : OnlyMem s (s.fetchWord w va).2 := by
  unfold fetchWord
  have h := xlate_only s (s.coreOf w) (s.ctxOf w.team) va .fetch
  dsimp only
  generalize s.xlate (s.coreOf w) (s.ctxOf w.team) va .fetch = p at h ⊢
  obtain ⟨r, u⟩ := p
  cases r with
  | fail c => exact h
  | absent => exact h
  | ok e =>
    dsimp only at h ⊢
    split
    · split
      · exact h
      · exact h.trans (codeWord_only ..)
    · split
      · exact h
      · exact h.trans (fetchRemote_only ..)
    · exact h

theorem newEntry_only (s : State) (w : WarpId) (addr : Nat) (mask : Mask) : OnlyMem s (s.newEntry w addr mask).2 :=
  fetchWord_only ..

theorem cachedWord_only (s : State) (w : WarpId) (c ctx va : Nat) : OnlyMem s (s.cachedWord w c ctx va).2 := by
  unfold cachedWord
  have h := xlate_only s c ctx va .load
  split
  · rename_i he; rw [he] at h; exact h
  · rename_i he; rw [he] at h; exact h
  · rename_i e s' he
    rw [he] at h
    split
    · split
      · exact h
      · exact h.trans (constWord_only ..)
    · split
      · exact h
      · split
        · exact h
        · exact h.trans (fetchRemote_only ..)
    · exact h

theorem windowWord_only (s : State) (w : WarpId) (n j : Nat) : OnlyMem s (s.windowWord w n j).2 := by
  unfold windowWord
  split
  · exact rfl' s
  · exact cachedWord_only ..

end State

theorem evalB_only (s : State) (w : WarpId) (x : Warp) (b : SrcB) : OnlyMem s (evalB s w x b).2 := by
  cases b with
  | reg r => exact rfl' s
  | imm v => exact rfl' s
  | win n j =>
    have h := State.windowWord_only s w n j
    simp only [evalB]
    revert h
    rcases s.windowWord w n j with ⟨_ | _, u⟩ <;> exact id

theorem evalB64_only (s : State) (w : WarpId) (x : Warp) (b : SrcB64) : OnlyMem s (evalB64 s w x b).2 := by
  unfold evalB64
  split
  · exact rfl' s
  · exact rfl' s
  · exact (evalB_only ..).trans (evalB_only ..)

end Sys2Proof.Machine
end

