-- ==== Sys2Proof/Tests/Slice0.lean ====
section
/-! SUPPORT. The tests of the model: words of the spec decoded, ill-formed instructions refused, one step each with the result that
the spec gives, and for every statement with hypotheses a concrete state that meets them. -/

namespace Sys2Proof.Tests

section
set_option Elab.async false
open Sys2Proof Sys2Proof.Machine Sys2Proof.Claims

/-- A word from the fields of its encoding (Table 11-5). -/
def word (op pg pn d a b c m : Nat) : DWord :=
  BitVec.ofNat 64 (op * 2 ^ 55 + pg * 2 ^ 49 + pn * 2 ^ 48 + d * 2 ^ 38 + a * 2 ^ 28 + b * 2 ^ 18 + c * 2 ^ 8 + m)
def words0a : List (DWord × Instr) :=
  [(word 0x000 5 1 1023 1023 1023 1023 0x00, .nop (.pred 5 true)),
   (word 0x001 5 1 1023 1023 1023 1005 0x00, .bra (.pred 5 true) (-19)),
   (word 0x002 63 0 1023 4 1023 1023 0x00, .brx .always (.v 4)),
   (word 0x003 63 0 6 1023 0 300 0x00, .call .always (.v 6) 300),
   (word 0x004 63 0 960 10 1023 1023 0x00, .callx .always (.h 0) (.v 10)),
   (word 0x005 63 0 1023 1023 1023 1023 0x00, .ret .always .z),
   (word 0x006 63 0 1023 1023 1023 1023 0x00, .exit .always),
   (word 0x007 5 1 1023 1023 1023 1023 0x00, .yield (.pred 5 true)),
   (word 0x008 63 0 1023 1023 1023 1023 0x8A, .wait .always .cb 17),
   (word 0x009 63 0 7 1023 8 1023 0x09, .bara .always (.v 7) (.v 8) 9),
   (word 0x00A 63 0 1023 7 1023 1023 0x0F, .barw .always (.v 7) 15),
   (word 0x00B 63 0 1023 1023 11 1023 0x02, .bars .always (.v 11) 2),
   (word 0x00C 63 0 1023 1023 1023 1023 0xA5, .rput .always 5 10),
   (word 0x00D 63 0 1023 1023 1023 1023 0x3E, .rget .always 6 3 true)]

theorem test_decode_words0a : ∀ p ∈ words0a, decode p.1 = .ok p.2 := by decide +kernel

def words0b : List (DWord × Instr) :=
  [(word 0x00E 63 0 1023 1023 1023 1023 0xF0, .rrel .always 0 15),
   (word 0x00F 63 0 8 20 1023 1023 0x00, .sread .always (.v 8) 20),
   (word 0x010 63 0 1023 15 1 1023 0x00, .swrite .always 15 (.v 1)),
   (word 0x011 63 0 3 1023 1023 1023 0x38, .reggrow .always (.v 3) 24 true),
   (word 0x012 63 0 1023 1023 1023 1023 0x05, .regshrink .always 5),
   (word 0x013 63 0 767 1023 1023 1023 0x00, .tagq .always (.v 767) .z),
   (word 0x014 63 0 2 766 1023 1023 0x00, .launch .always (.v 2) (.v 766)),
   (word 0x015 63 0 5 6 1023 1023 0x01, .lwait .always (.v 5) (.v 6) true),
   (word 0x016 63 0 1023 1023 1023 1023 0xA5, .trap .always 0xA5),
   (word 0x017 63 0 1023 1023 1023 1023 0x5A, .brk .always 0x5A),
   (word 0x018 63 0 1023 1023 1023 1023 0x01, .tret .always true),
   (word 0x019 63 0 991 1023 1023 1023 0x0D, .tinfo .always (.h 31) 13),
   (word 0x01A 63 0 1023 12 13 1023 0x01, .tlbinv .always (.v 12) (.v 13) true)]

theorem test_decode_words0b : ∀ p ∈ words0b, decode p.1 = .ok p.2 := by decide +kernel

def words1a : List (DWord × Instr) :=
  [(word 0x040 5 1 1 2 3 1023 0x01, .iadd (.pred 5 true) (.v 1) (.v 2) (.reg (.v 3)) .sat),
   (word 0x041 63 0 1 2 708 368 0x42, .isub .always (.v 1) (.v 2) (.win 5 70000) .usat),
   (word 0x042 63 0 1 2 1023 1022 0x80, .imul .always (.v 1) (.v 2) (.imm (-2))),
   (word 0x043 63 0 1 2 3 1023 0x01, .imulh .always (.v 1) (.v 2) (.reg (.v 3)) true),
   (word 0x044 63 0 1 2 3 4 0x00, .imad .always (.v 1) (.v 2) (.v 3) (.v 4)),
   (word 0x045 63 0 2 3 5 8 0x01, .imadw .always (.v 2) (.v 3) (.v 5) (.v 8) true),
   (word 0x046 63 0 2 4 6 1023 0x00, .iadd64 .always (.v 2) (.v 4) (.pair (.v 6))),
   (word 0x047 63 0 2 4 0 7 0x80, .isub64 .always (.v 2) (.v 4) (.imm 7)),
   (word 0x048 63 0 1 2 3 1023 0x00, .imin .always (.v 1) (.v 2) (.reg (.v 3)) false),
   (word 0x049 63 0 1 2 3 1023 0x01, .imax .always (.v 1) (.v 2) (.reg (.v 3)) true),
   (word 0x04A 63 0 1 2 1023 1023 0x01, .iabs .always (.v 1) (.v 2) true),
   (word 0x04B 63 0 1 2 1023 1023 0x00, .ineg .always (.v 1) (.v 2) false),
   (word 0x04C 63 0 1 2 1023 1023 0x03, .isat .always (.v 1) (.v 2) .n16),
   (word 0x04D 63 0 1 2 3 1023 0x01, .idiv .always (.v 1) (.v 2) (.reg (.v 3)) true)]

theorem test_decode_words1a : ∀ p ∈ words1a, decode p.1 = .ok p.2 := by decide +kernel

def words1b : List (DWord × Instr) :=
  [(word 0x04E 63 0 1 2 3 1023 0x00, .irem .always (.v 1) (.v 2) (.reg (.v 3)) false),
   (word 0x04F 63 0 1 2 3 4 0x01, .idot4 .always (.v 1) (.v 2) (.v 3) (.v 4) true false),
   (word 0x050 63 0 1 2 3 4 0x02, .idot2 .always (.v 1) (.v 2) (.v 3) (.v 4) false true),
   (word 0x051 63 0 2 4 7 1023 0x23, .lea .always (.v 2) (.v 4) (.reg (.v 7)) 3 true),
   (word 0x052 63 0 9 8 7 1023 0x00, .and .always (.v 9) (.v 8) (.reg (.v 7))),
   (word 0x053 63 0 9 8 7 1023 0x00, .or .always (.v 9) (.v 8) (.reg (.v 7))),
   (word 0x054 63 0 9 8 7 1023 0x00, .xor .always (.v 9) (.v 8) (.reg (.v 7))),
   (word 0x055 63 0 9 8 7 1023 0x00, .andn .always (.v 9) (.v 8) (.reg (.v 7))),
   (word 0x056 63 0 9 8 1023 1023 0x00, .not .always (.v 9) (.v 8)),
   (word 0x057 63 0 9 8 7 150 0x00, .lop3 .always (.v 9) (.v 8) (.v 7) 0x96),
   (word 0x058 63 0 9 8 7 1023 0x00, .shl .always (.v 9) (.v 8) (.reg (.v 7))),
   (word 0x059 63 0 9 8 7 1023 0x00, .shr .always (.v 9) (.v 8) (.reg (.v 7))),
   (word 0x05A 63 0 9 8 7 1023 0x00, .sar .always (.v 9) (.v 8) (.reg (.v 7))),
   (word 0x05B 63 0 9 8 7 1023 0x00, .rotl .always (.v 9) (.v 8) (.reg (.v 7)))]

theorem test_decode_words1b : ∀ p ∈ words1b, decode p.1 = .ok p.2 := by decide +kernel

def words1c : List (DWord × Instr) :=
  [(word 0x05C 63 0 9 8 7 6 0x00, .funl .always (.v 9) (.v 8) (.v 7) (.v 6)),
   (word 0x05D 63 0 9 8 7 6 0x00, .funr .always (.v 9) (.v 8) (.v 7) (.v 6)),
   (word 0x05E 63 0 9 8 1023 1023 0x00, .popc .always (.v 9) (.v 8)),
   (word 0x05F 63 0 9 8 1023 1023 0x00, .clz .always (.v 9) (.v 8)),
   (word 0x060 63 0 9 8 1023 1023 0x00, .ctz .always (.v 9) (.v 8)),
   (word 0x061 63 0 9 8 1023 1023 0x00, .brev .always (.v 9) (.v 8)),
   (word 0x062 63 0 9 8 7 1023 0x01, .bfx .always (.v 9) (.v 8) (.reg (.v 7)) true),
   (word 0x063 63 0 9 8 7 6 0x00, .bfi .always (.v 9) (.v 8) (.v 7) (.v 6)),
   (word 0x064 63 0 9 8 7 6 0x00, .prmt .always (.v 9) (.v 8) (.v 7) (.v 6)),
   (word 0x065 63 0 47 8 7 1023 0x0B, .isetp .always 47 (.v 8) (.reg (.v 7)) .le true),
   (word 0x066 63 0 9 8 7 1023 0x2E, .sel .always (.v 9) (.v 8) (.reg (.v 7)) 46),
   (word 0x067 63 0 9 1023 512 0 0x80, .mov .always (.v 9) (.imm (-524288))),
   (word 0x068 63 0 9 490 879 751 0x83, .movi .always (.v 9) 0xDEADBEEF),
   (word 0x069 63 0 9 1023 8 1023 0x00, .movu .always (.v 9) (.v 8))]

theorem test_decode_words1c : ∀ p ∈ words1c, decode p.1 = .ok p.2 := by decide +kernel

def words2a : List (DWord × Instr) :=
  [(word 0x080 63 0 1 2 3 232 0x00, .plop3 .always 1 2 3 0xE8),
   (word 0x081 63 0 9 3 1023 1023 0x00, .p2v .always (.v 9) 3),
   (word 0x082 63 0 3 9 1023 1023 0x01, .v2p .always 3 (.v 9) true),
   (word 0x083 63 0 3 4 1023 1023 0x02, .vote .always 3 4 .eq),
   (word 0x084 63 0 9 4 1023 1023 0x00, .pcnt .always (.v 9) 4),
   (word 0x085 63 0 4 1023 1023 1023 0x00, .elect .always 4),
   (word 0x086 63 0 9 8 7 1023 0x03, .shfl .always (.v 9) (.v 8) (.reg (.v 7)) .xor),
   (word 0x087 63 0 9 8 7 1023 0x00, .bcast .always (.v 9) (.v 8) (.reg (.v 7))),
   (word 0x088 63 0 9 8 1023 1023 0x08, .redux .always (.v 9) (.v 8) .fadd),
   (word 0x089 63 0 9 8 1023 1023 0x17, .scan .always (.v 9) (.v 8) .xor true),
   (word 0x08A 63 0 9 8 1023 1023 0x01, .match .always (.v 9) (.v 8) true),
   (word 0x08B 63 0 9 8 1023 1023 0x2E, .cvtif .always (.v 9) (.v 8) .ru true .f16 true),
   (word 0x08C 63 0 9 8 1023 1023 0x19, .cvtfi .always (.v 9) (.v 8) .rz false .f64 false),
   (word 0x08D 63 0 9 8 1023 1023 0x33, .cvtff .always (.v 9) (.v 8) .rd .f32 .f64)]

theorem test_decode_words2a : ∀ p ∈ words2a, decode p.1 = .ok p.2 := by decide +kernel

def words2b : List (DWord × Instr) :=
  [(word 0x08E 63 0 40 32 48 1023 0x03, .cvtn .always (.v 40) (.v 32) (.reg (.v 48)) 3),
   (word 0x08F 63 0 40 32 48 1023 0x07, .cvtw .always (.v 40) (.v 32) (.reg (.v 48)) 7),
   (word 0x090 63 0 9 8 1023 1023 0x05, .cbdec .always (.v 9) (.v 8) .f16 true),
   (word 0x091 63 0 9 8 1023 1023 0x05, .scalq .always (.v 9) (.v 8) 5),
   (word 0x092 63 0 9 8 7 1023 0x05, .amax .always (.v 9) (.v 8) (.reg (.v 7)) true .bf16x2)]

theorem test_decode_words2b : ∀ p ∈ words2b, decode p.1 = .ok p.2 := by decide +kernel

def words3a : List (DWord × Instr) :=
  [(word 0x0C0 63 0 9 8 7 1023 0x17, .fadd .always (.v 9) (.v 8) (.reg (.v 7)) ⟨.rd, true, false, true, false⟩),
   (word 0x0C1 63 0 9 8 7 1023 0x08, .fsub .always (.v 9) (.v 8) (.reg (.v 7)) ⟨.rn, false, true, false, false⟩),
   (word 0x0C2 63 0 9 8 256 9 0x41, .fmul .always (.v 9) (.v 8) (.win 2 9) ⟨.rz, false, false, false, false⟩),
   (word 0x0C3 63 0 13 12 1 13 0x22, .ffma .always (.v 13) (.v 12) (.v 1) (.v 13) ⟨.ru, false, false, false, true⟩),
   (word 0x0C4 63 0 9 8 7 1023 0x00, .fmin .always (.v 9) (.v 8) (.reg (.v 7))),
   (word 0x0C5 63 0 9 8 7 1023 0x00, .fmax .always (.v 9) (.v 8) (.reg (.v 7))),
   (word 0x0C6 63 0 9 8 7 1023 0x06, .fsetp .always 9 (.v 8) (.reg (.v 7)) .num),
   (word 0x0C7 63 0 9 8 1023 1023 0x00, .fclass .always (.v 9) (.v 8)),
   (word 0x0C8 63 0 9 8 1023 1023 0x03, .frnd .always (.v 9) (.v 8) .rd),
   (word 0x0C9 63 0 9 8 1023 1023 0x00, .frcp .always (.v 9) (.v 8)),
   (word 0x0CA 63 0 9 8 1023 1023 0x00, .frsq .always (.v 9) (.v 8)),
   (word 0x0CB 63 0 9 8 1023 1023 0x01, .fsqrt .always (.v 9) (.v 8) .rz),
   (word 0x0CC 63 0 9 8 7 1023 0x02, .fdiv .always (.v 9) (.v 8) (.reg (.v 7)) .ru),
   (word 0x0CD 63 0 9 8 1023 1023 0x00, .fexpf .always (.v 9) (.v 8))]

theorem test_decode_words3a : ∀ p ∈ words3a, decode p.1 = .ok p.2 := by decide +kernel

def words3b : List (DWord × Instr) :=
  [(word 0x0CE 63 0 9 8 1023 1023 0x00, .flogf .always (.v 9) (.v 8)),
   (word 0x0CF 63 0 9 8 1023 1023 0x00, .fsin .always (.v 9) (.v 8)),
   (word 0x0D0 63 0 9 8 1023 1023 0x00, .fcos .always (.v 9) (.v 8)),
   (word 0x0D1 63 0 9 8 1023 874 0x81, .fscale .always (.v 9) (.v 8) (.imm (-150)) .rz),
   (word 0x0D2 63 0 9 8 1023 1023 0x00, .fexpo .always (.v 9) (.v 8)),
   (word 0x0D3 63 0 9 8 1023 1023 0x00, .fmant .always (.v 9) (.v 8)),
   (word 0x0D4 63 0 9 8 7 1023 0x0C, .hadd2 .always (.v 9) (.v 8) (.reg (.v 7)) ⟨.rn, true, true⟩),
   (word 0x0D5 63 0 9 8 7 1023 0x03, .hmul2 .always (.v 9) (.v 8) (.reg (.v 7)) ⟨.rd, false, false⟩),
   (word 0x0D6 63 0 9 8 7 6 0x09, .hfma2 .always (.v 9) (.v 8) (.v 7) (.v 6) ⟨.rz, false, true⟩),
   (word 0x0D7 63 0 9 8 7 1023 0x09, .hmnmx2 .always (.v 9) (.v 8) (.reg (.v 7)) true true),
   (word 0x0D8 63 0 9 8 7 6 0x06, .fdot2 .always (.v 9) (.v 8) (.v 7) (.v 6) ⟨.ru, true, false⟩),
   (word 0x0D9 63 0 10 8 6 1023 0x09, .dadd .always (.v 10) (.v 8) (.pair (.v 6)) ⟨.rz, false, true, false, false⟩),
   (word 0x0DA 63 0 10 8 6 1023 0x12, .dmul .always (.v 10) (.v 8) (.pair (.v 6)) ⟨.ru, false, false, true, false⟩),
   (word 0x0DB 63 0 10 8 6 4 0x20, .dfma .always (.v 10) (.v 8) (.v 6) (.v 4) ⟨.rn, false, false, false, true⟩)]

theorem test_decode_words3b : ∀ p ∈ words3b, decode p.1 = .ok p.2 := by decide +kernel

def words4 : List (DWord × Instr) :=
  [(word 0x100 63 0 12 22 1023 1016 0x30, .ld .always .sc .b128 (.v 12) (.v 22) (-8)),
   (word 0x101 63 0 12 22 1 1023 0x05, .st .always .gl .b16 true (.v 12) (.v 22) 2047),
   (word 0x102 63 0 24 21 1023 1023 0x09, .ldk .always (.v 24) (.v 21) 1 true),
   (word 0x103 63 0 12 22 0 16 0x0E, .ldacq .always .gl .b64 .p (.v 12) (.v 22) 16),
   (word 0x104 63 0 12 22 0 0 0x49, .strel .always .cl .b32 .c (.v 12) (.v 22) 0),
   (word 0x105 63 0 12 22 24 3 0x3C, .atom .always .or ⟨.gl, true, .ar, .p⟩ (.v 12) (.v 22) (.v 24)),
   (word 0x106 63 0 12 23 25 27 0x4A, .atomc .always ⟨.sc, false, .acq, .c⟩ (.v 12) (.v 23) (.v 25) (.v 27)),
   (word 0x107 63 0 1023 22 25 10 0x16, .red .always .fadd ⟨.gl, false, .rel, .s⟩ (.v 22) (.v 25)),
   (word 0x108 63 0 1023 1023 1023 1023 0x03, .fence .always .p),
   (word 0x109 63 0 1023 1023 1023 1023 0x0A, .fencea .always 0b1010),
   (word 0x10A 63 0 1023 8 7 1023 0x01, .cwb .always true (.v 8) (.v 7)),
   (word 0x10B 63 0 1023 8 7 1023 0x00, .cinv .always false (.v 8) (.v 7)),
   (word 0x10C 63 0 1023 8 0 128 0x01, .cpf .always true (.v 8) 128),
   (word 0x10D 63 0 1023 1023 7 1023 0x00, .slcdr .always (.v 7))]

theorem test_decode_words4 : ∀ p ∈ words4, decode p.1 = .ok p.2 := by decide +kernel

def words5a : List (DWord × Instr) :=
  [(word 0x140 63 0 1023 6 9 8 0x20, .cpy .always .sc .gl .z (.v 6) (.v 9) 8),
   (word 0x141 63 0 4 6 9 1021 0x08, .cpyt .always .gl .cl (.v 4) (.v 6) (.v 9) (-3)),
   (word 0x142 63 0 5 6 9 0 0x2C, .cpyx .always .sc .ch (.v 5) (.v 6) (.v 9) 0),
   (word 0x143 63 0 5 7 9 1 0x44, .cpyo .always .cl .sc (.v 5) (.v 7) (.v 9) 1),
   (word 0x144 63 0 5 1023 1023 1023 0x00, .cseal .always (.v 5)),
   (word 0x145 63 0 1023 5 1023 1023 0x00, .cwait .always (.v 5)),
   (word 0x146 63 0 1023 8 7 1023 0x00, .shopen .always (.v 8) (.v 7)),
   (word 0x147 63 0 1023 8 7 1023 0x03, .publish .always .s (.v 8) (.v 7)),
   (word 0x148 63 0 1023 8 7 1023 0x00, .shdrop .always (.v 8) (.v 7)),
   (word 0x149 63 0 8 7 10 2 0x05, .put .always .sc true (.v 8) (.v 7) (.v 10) 2),
   (word 0x14A 63 0 7 8 10 2 0x40, .get .always .cl false (.v 7) (.v 8) (.v 10) 2),
   (word 0x14B 63 0 1023 8 10 7 0x00, .mcast .always (.v 8) (.v 10) (.v 7)),
   (word 0x14C 63 0 5 8 7 6 0x00, .lreg .always (.v 5) (.v 8) (.v 7) (.v 6)),
   (word 0x14D 63 0 1023 1023 7 1023 0x00, .ldereg .always (.v 7))]

theorem test_decode_words5a : ∀ p ∈ words5a, decode p.1 = .ok p.2 := by decide +kernel

def words5b : List (DWord × Instr) :=
  [(word 0x14E 63 0 1023 8 7 6 0xFF, .send .always 256 (.v 8) (.v 7) (.v 6)),
   (word 0x14F 63 0 5 8 7 6 0x00, .rpost .always 1 (.v 5) (.v 8) (.v 7) (.v 6)),
   (word 0x150 63 0 6 5 1023 1023 0x00, .rpoll .always (.v 6) (.v 5)),
   (word 0x151 63 0 1023 5 1023 1023 0x00, .coll .always (.v 5)),
   (word 0x152 63 0 1023 6 8 1023 0x05, .skmrg .always (.v 6) (.v 8) (some .p)),
   (word 0x153 63 0 5 7 6 8 0x00, .tarm .always (.v 5) (.v 7) (.v 6) (.v 8)),
   (word 0x154 63 0 1023 7 6 1023 0x00, .tadd .always (.v 7) (.v 6)),
   (word 0x155 63 0 6 7 1023 1023 0x00, .trd .always (.v 6) (.v 7)),
   (word 0x156 63 0 5 7 1023 1023 0x00, .tdisarm .always (.v 5) (.v 7))]

theorem test_decode_words5b : ∀ p ∈ words5b, decode p.1 = .ok p.2 := by decide +kernel

def words6 : List (DWord × Instr) :=
  [(word 0x180 63 0 2 32 8 1023 0x95, .mma .always 2 (.v 32) (.v 8) ⟨true, 1, 2, true⟩),
   (word 0x181 63 0 15 32 8 40 0x70, .mmas .always 15 (.v 32) (.v 8) (.v 40) ⟨false, 7, 0, false⟩),
   (word 0x182 63 0 0 32 8 1023 0x36, .mmac .always 0 (.v 32) (.v 8) ⟨false, 3, 3, false⟩),
   (word 0x183 63 0 7 1023 1023 1023 0x00, .mzero .always 7),
   (word 0x184 63 0 16 3 1023 1023 0x02, .mrd .always (.v 16) 3 2),
   (word 0x185 63 0 3 16 1023 1023 0x01, .mwr .always 3 (.v 16) 1),
   (word 0x186 63 0 3 9 1023 1023 0x00, .mld .always 3 (.v 9)),
   (word 0x187 63 0 3 8 1023 1023 0x17, .mst .always 3 true true 5 (.v 8)),
   (word 0x188 63 0 1023 1023 1023 1023 0x00, .mrel .always)]

theorem test_decode_words6 : ∀ p ∈ words6, decode p.1 = .ok p.2 := by decide +kernel

def words7 : List (DWord × Instr) :=
  [(word 0x1C0 63 0 5 8 6 7 0x01, .skins .always (.v 5) (.v 8) (.v 6) (.v 7) true),
   (word 0x1C1 63 0 5 8 6 1023 0x00, .skdel .always (.v 5) (.v 8) (.v 6) .z false),
   (word 0x1C2 63 0 5 8 6 7 0x00, .skqry .always (.v 5) (.v 8) (.v 6) (.v 7)),
   (word 0x1C3 63 0 4 8 1023 7 0x00, .skcard .always (.v 4) (.v 8) (.v 7)),
   (word 0x1C4 63 0 4 8 6 7 0x00, .skrank .always (.v 4) (.v 8) (.v 6) (.v 7)),
   (word 0x1C5 63 0 5 8 6 7 0x00, .skqtl .always (.v 5) (.v 8) (.v 6) (.v 7)),
   (word 0x1C6 63 0 4 8 6 1023 0x0F, .skhash .always (.v 4) (.v 8) (.v 6) 16),
   (word 0x1C7 63 0 1023 8 1023 1023 0x01, .skfold .always .c (.v 8)),
   (word 0x1C8 63 0 1023 8 1023 1023 0x00, .skclr .always .t (.v 8)),
   (word 0x1C9 63 0 4 8 1023 1023 0x06, .skstat .always (.v 4) (.v 8) 6),
   (word 0x1CA 63 0 1023 8 1023 1023 0x00, .skinv .always (.v 8))]

theorem test_decode_words7 : ∀ p ∈ words7, decode p.1 = .ok p.2 := by decide +kernel
/-! ### Small states -/

/-- A register with the same word in every lane, and one that steps by `st`. -/
def same (v : Word) : VReg := uniformReg v
def steps (b st : Word) : VReg := { tag := .affine, words := lanes.map fun i => b + BitVec.ofNat 32 i * st }

/-- The one warp of the small states. -/
def w0 : WarpId := ⟨0, 0⟩

/-- A package whose one warp is about to run a word, with these registers. -/
def ready (w : DWord) (regs : AMap VReg) : State := (State.reset.placeWord w).modWarp w0 fun x => { x with regs := regs }

/-- The warp of a small state, and its position. -/
def wx (s : State) : Warp :=
  (s.warp? w0).getD (Warp.start 0 0 0 0 0 0 { addr := 0, mask := 0, prio := 0, passes := 0, rejoin := false })
def cx (s : State) : Cursor :=
  (wx s).cursor.getD { hdr := 0, pc := 0, last := 0, live := 0, rmask := 0, eng := 0, words := [] }

/-- Whether an instruction is the oldest of the warp of a small state and executes at once. -/
def oldest (s : State) (i : Instr) : Bool :=
  decide (s.cur = some w0) && (s.warp? w0).isSome && (wx s).cursor.isSome && State.canDispatch (wx s) &&
    (dispatchCheck (s.slots w0) (wx s) (wx s).inHandler (s.isSys w0.team) (cx s).eng i).isNone && s.roomFor w0 (wx s) i &&
    (wx s).window.isEmpty && s.opsReady w0 (wx s) [] i (cx s).rmask

theorem wx_eq {s : State} (h : (s.warp? w0).isSome = true) : s.warp? w0 = some (wx s) := by
  unfold wx; cases e : s.warp? w0 <;> simp_all

theorem cx_eq {s : State} (h : (wx s).cursor.isSome = true) : (wx s).cursor = some (cx s) := by
  unfold cx; cases e : (wx s).cursor <;> simp_all

theorem oldest_sound {s : State} {i : Instr} (h : oldest s i = true) : Oldest s w0 (wx s) (cx s) i := by
  simp only [oldest, Bool.and_eq_true, decide_eq_true_eq, Option.isNone_iff_eq_none, List.isEmpty_iff] at h
  obtain ⟨⟨⟨⟨⟨⟨⟨h1, h2⟩, h3⟩, h4⟩, h5⟩, h6⟩, h7⟩, h8⟩ := h
  exact ⟨⟨h1, wx_eq h2, cx_eq h3, h4, h5, h6⟩, h7, h8⟩

def act (s : State) (i : Instr) : Mask := activeMask (wx s) (cx s) i
/-- The state as the warp of a small state has dispatched an instruction. -/
def disp (s : State) (i : Instr) : State := s.dispatched w0 (wx s) (cx s) i
/-! ### Witnesses: concrete states and operands that meet the hypotheses of the statements -/

/-- The hypotheses that the statements of an instruction of a warp share: the oldest, with a lane active. -/
abbrev Old (s : State) (i : Instr) : Prop := oldest s i = true ∧ act s i ≠ 0

theorem old_sound {s : State} {i : Instr} (h : Old s i) :
    Oldest s w0 (wx s) (cx s) i ∧ activeMask (wx s) (cx s) i ≠ 0 := ⟨oldest_sound h.1, h.2⟩

/-- Operand B of an instruction of a small state. -/
def opnd (s : State) (i : Instr) : Option (List VReg) := (readB (disp s i) w0 (wx s) i).1

/-- StepRunsDecodedInstruction: a legal word, a reserved opcode, and a word with a reserved bit set; and an event. -/
theorem witness_step :
    (∀ p ∈ [(word 0 63 0 1023 1023 1023 1023 0, Except.ok (Instr.nop .always)),
        (word 0x1FF 63 0 0 0 0 0 0, .error (.illegalOpcode 0x1FF)), (word 0 63 0 1023 1023 1023 1023 1, .error (.illegalOperand 0))],
      decode p.1 = p.2 ∧ (ready p.1 []).agenda = [] ∧ (cx (ready p.1 [])).words = [p.1]) ∧
    (ready (word 0 63 0 1023 1023 1023 1023 0) []).passed.cur = some w0 ∧
    (ready (word 0 63 0 1023 1023 1023 1023 0) []).passed.warp? w0 = some (wx (ready (word 0 63 0 1023 1023 1023 1023 0) []).passed) ∧
    ({ State.reset with agenda := [.event .packageReset] }).agenda = [.event .packageReset] := by
  refine ⟨by decide +kernel, by decide +kernel, rfl, rfl⟩

/-- StepRunsDecodedInstruction: a package in which nothing waits or is due. -/
theorem witness_quiet : let s := ready (word 0 63 0 1023 1023 1023 1023 0) []
    Quiet { s with stepNo := s.stepNo + 1, clock := s.clock + Config.stepCycles s.stepNo } := by
  refine ⟨rfl, rfl, rfl, rfl, rfl, ⟨rfl, rfl⟩, ?_, ?_, ?_, by decide +kernel, by decide +kernel⟩ <;> (intro _ h; cases h)
/-- The hypotheses of IntegerAndPredicateResults and FloatResults: operand B can be read and the tables give a result. -/
abbrev Results (s : State) (i : Instr) : Prop :=
  Old s i ∧ ∃ gi ∈ (s.gridOf? w0.team).toList, ∃ B ∈ (opnd s i).toList,
    (integerOuts (wx s) (act s i) B i).isSome ∨ (crossOuts (wx s) (act s i) B i).isSome ∨ (predOuts (wx s) (act s i) B i).isSome ∨
    (floatOuts gi.2.ftv (wx s) B i).isSome ∨ (convertOuts gi.2.slot (wx s) (act s i) B i).isSome

theorem witness_results1a : ∀ p ∈ words1a, Results (ready p.1 []) p.2 := by decide +kernel
theorem witness_results1b : ∀ p ∈ words1b, Results (ready p.1 []) p.2 := by decide +kernel
theorem witness_results1c : ∀ p ∈ words1c, Results (ready p.1 []) p.2 := by decide +kernel
theorem witness_results2a : ∀ p ∈ words2a, Results (ready p.1 []) p.2 := by decide +kernel
theorem witness_results2b : ∀ p ∈ words2b, Results (ready p.1 []) p.2 := by decide +kernel
theorem witness_results3a : ∀ p ∈ words3a, Results (ready p.1 []) p.2 := by decide +kernel
theorem witness_results3b : ∀ p ∈ words3b, Results (ready p.1 []) p.2 := by decide +kernel

/-- TagsStayTrue: a warp whose registers are all zero, and an addition. -/
theorem witness_tags_stay_true : TagsTrue (wx (ready (word 0x040 63 0 1 2 3 1023 0) [])) ∧
    ∃ B ∈ (opnd (ready (word 0x040 63 0 1 2 3 1023 0) []) (.iadd .always (.v 1) (.v 2) (.reg (.v 3)) .wrap)).toList,
      (integerOuts (wx (ready (word 0x040 63 0 1 2 3 1023 0) [])) allLanes B (.iadd .always (.v 1) (.v 2) (.reg (.v 3)) .wrap)).isSome := by
  refine ⟨fun n => ?_, by decide +kernel⟩
  have h : (wx (ready (word 0x040 63 0 1 2 3 1023 0) [])).reg n = zeroReg := by
    unfold Warp.reg; repeat' split
    all_goals rfl
  rw [h]; exact (by decide : ∀ k < 32, zeroReg.at k = zeroReg.at 0)

/-- A warp of a small state in handler state, its record for a fault of its clause, or of its header. -/
def handling (s : State) (hdr : Bool) : State := s.modWarp w0 fun x =>
  { x with
    status := .handler
    handler := some { bank := some 0, since := 0, started := true, frozen := [], fcur := x.cursor,
                      trec := { TrapRec.zero with code := 0x07, pc := 8, mask := 1, live := allLanes, hdr := hdr } } }

/-- ControlAndConstantReads: each instruction, `TINFO` in handler state, `SREAD` of a special register of each shape. -/
theorem witness_control_reads :
    (∀ p ∈ [(word 0 5 1 1023 1023 1023 1023 0, Instr.nop (.pred 5 true)), (word 0x00F 63 0 8 0 1023 1023 0, .sread .always (.v 8) 0),
        (word 0x00F 63 0 8 41 1023 1023 0, .sread .always (.v 8) 41), (word 0x00F 63 0 8 20 1023 1023 0, .sread .always (.v 8) 20),
        (word 0x013 63 0 767 1023 1023 1023 0, .tagq .always (.v 767) .z)],
      Old (ready p.1 []) p.2 ∧ (controlOuts (ready p.1 []) w0 (wx (ready p.1 [])) p.2).isSome) ∧
    (let s := handling (ready (word 0x019 63 0 991 1023 1023 1023 0x0D) []) false
     Old s (.tinfo .always (.h 31) 13) ∧ (controlOuts s w0 (wx s) (.tinfo .always (.h 31) 13)).isSome) ∧
    (let s := ready (word 0x102 63 0 24 21 1023 1023 9) [(21, same 0x1FFFF)]
     let i := Instr.ldk .always (.v 24) (.v 21) 1 true
     Old s i ∧ (wx s).window = [] ∧ (wx s).loads = [] ∧ (wx s).stores = [] ∧ (wx s).skOps = [] ∧ (windowWords w0 1 true ((laneList (act s i)).map fun k => (k, ((wx s).rd (.v 21) k).toNat % 2 ^ 17))
       (disp s i)).1.isSome) := by decide +kernel

/-- DivisionResults: by zero, the signed corner, and an ordinary case, each lane's. -/
theorem witness_division : ∀ r ∈ [(same 7, same 0), (same 0x80000000, same 0xFFFFFFFF), (same 0xFFFFFFF9, same 2)],
    let s := ready (word 0x04D 63 0 1 2 3 1023 0) [(2, r.1), (3, r.2)]
    Old s (.idiv .always (.v 1) (.v 2) (.reg (.v 3)) false) ∧ oldest s (.irem .always (.v 1) (.v 2) (.reg (.v 3)) false) = true ∧
    opnd s (.idiv .always (.v 1) (.v 2) (.reg (.v 3)) false) = some [r.2] ∧
    opnd s (.irem .always (.v 1) (.v 2) (.reg (.v 3)) false) = some [r.2] := by decide +kernel

/-- TagQuery: a source of each tag, in all lanes. -/
theorem witness_tag_query : ∀ r ∈ [same 1, steps 3 4, { same 1 with tag := .general }],
    let s := ready (word 0x013 63 0 5 2 1023 1023 0) [(2, r)]
    oldest s (.tagq .always (.v 5) (.v 2)) = true ∧ act s (.tagq .always (.v 5) (.v 2)) = allLanes := by decide +kernel

/-- EmptyMaskRetires: instructions of each group under a predicate that holds nowhere. -/
theorem witness_empty_mask :
    ∀ p ∈ [(word 0 5 0 1023 1023 1023 1023 0, Instr.nop (.pred 5 false)), (word 0x040 5 0 1 2 3 1023 0, .iadd (.pred 5 false) (.v 1) (.v 2) (.reg (.v 3)) .wrap),
        (word 0x16 5 0 1023 1023 1023 1023 1, .trap (.pred 5 false) 1), (word 0x108 5 0 1023 1023 1023 1023 3, .fence (.pred 5 false) .p),
        (word 0x144 5 0 5 1023 1023 1023 0, .cseal (.pred 5 false) (.v 5)), (word 0x183 5 0 7 1023 1023 1023 0, .mzero (.pred 5 false) 7)],
      oldest (ready p.1 []) p.2 = true ∧ act (ready p.1 []) p.2 = 0 ∧ encode p.2 = some p.1 := by decide +kernel

/-- DispatchChecksTrap: a failing check of each kind, a class that forbids its group, legal fields with the last register of an
allocation of 24 and with the first beyond, a privileged instruction, and a reserved opcode. -/
theorem witness_dispatch_checks :
    (∀ p ∈ [(word 0x018 63 0 1023 1023 1023 1023 1, Instr.tret .always true, 0x03),
        (word 0x040 63 0 1 2 3 1023 0, .iadd .always (.v 767) (.v 2) (.reg (.v 3)) .wrap, 0x04),
        (word 0x144 63 0 5 1023 1023 1023 0, .mzero .always 7, 0x02)],
      let s := (ready p.1 []).modWarp w0 fun x => { x with g := 23 }
      s.cur = some w0 ∧ State.canDispatch (wx s) = true ∧ (wx s).window = [] ∧ (encode p.2.1).isSome = true ∧
      dispatchCheck (s.slots w0) (wx s) (wx s).inHandler (s.isSys w0.team) (cx s).eng p.2.1 = some p.2.2) ∧
    (let s := ready (word 0x010 63 0 1023 15 1 1023 0) []
     FieldsLegal (s.slots w0) (wx s) false 0 (.iadd .always (.v 767) (.v 2) (.reg (.v 3)) .wrap) ∧
     FieldsLegal (s.slots w0) (wx s) false 0 (.swrite .always 40 (.v 1))) ∧
    (decode (word 0x1FF 63 0 0 0 0 0 0) = .error (.illegalOpcode 0x1FF) ∧ reservedOp ((word 0x1FF 63 0 0 0 0 0 0).toNat / 2 ^ 55) = true ∧
      reservedOp 0x1B = true ∧ reservedOp 0x1CB = true ∧ reservedOp 0x1CA = false) := by
  refine ⟨by decide +kernel, ⟨⟨?_, ?_, ?_, ?_, ?_, ?_, ?_, ?_⟩, ⟨?_, ?_, ?_, ?_, ?_, ?_, ?_, ?_⟩⟩, by decide +kernel⟩ <;>
    first | decide +kernel | (intros; contradiction)
/-- EncodeThenDecode: the words of every instruction of groups 0 to 7. -/
theorem witness_encode_a : ∀ p ∈ words0a ++ words0b ++ words1a ++ words1b ++ words1c ++ words2a ++ words2b,
    p.2.wf = true ∧ encode p.2 = some p.1 := by decide +kernel
theorem witness_encode_b : ∀ p ∈ words3a ++ words3b ++ words4 ++ words5a ++ words5b ++ words6 ++ words7,
    p.2.wf = true ∧ encode p.2 = some p.1 := by decide +kernel

/-- ResultLanes: the last vector register, both ends of the handler's, `vz`, a full, a partial and an empty mask. -/
theorem witness_result_lanes : (∀ n ∈ [767, 960, 991], n < 768 ∨ (960 ≤ n ∧ n < 992)) ∧ ¬ (1023 < 768 ∨ (960 ≤ 1023 ∧ 1023 < 992)) ∧
    (allLanes ≠ 0 ∧ (1 : Mask) ≠ 0 ∧ (1 : Mask) ≠ allLanes) ∧ (767 < 992 ∧ 767 < 768 ∧ 767 ≠ 960) := by decide

/-- Rounding: the infinities and zeros are patterns that are no NaN; a third is rounded to a finite number, and so is the pattern
next to it. -/
theorem witness_rounding : (∀ n ∈ [0, 0x80000000, 0x7F800000, 0xFF800000, 1], n < 2 ^ 32 ∧ fmtF32.value n ≠ .nan) ∧
    (∀ n ∈ [0, 0x7FF0000000000000, 1], n < 2 ^ 64 ∧ fmtF64.value n ≠ .nan) ∧
    (numQ (fmtF32.value (rne32 (.fin false 1 3)))).isSome = true ∧ rne32 (.fin false 1 3) = 0x3EAAAAAB ∧
    (numQ (fmtF32.value 0x3EAAAAAA)).isSome = true := by decide +kernel
/-- A small state with its warp, its team or its context changed. -/
def onWarp (s : State) (f : Warp → Warp) : State := s.modWarp w0 f
def onTeam (s : State) (f : Team → Team) : State := s.modTeam 0 f
def onCtx (s : State) (f : Ctx → Ctx) : State := s.modCtx 1 f
/-- The same with one lane left in its clause. -/
def oneLane (s : State) : State := onWarp s fun x =>
  { x with cursor := x.cursor.map fun c => { c with live := 1, rmask := 1 } }
/-- The same with bytes at a virtual address of its code page. -/
def poke (s : State) (va : Nat) (l : List Byte) : State :=
  s.modMem fun m => { m with hbm := Memory.write m.hbm (0x80000 + va) l }

/-- BranchesAndClauseEnd: each branch to aligned headers, outside and in handler state, and each indirect one to an address
that is no multiple of 8. -/
theorem witness_branches :
    (∀ p ∈ [(word 0x001 63 0 1023 1023 1023 1005 0, Instr.bra .always (-19)), (word 0x002 63 0 1023 4 1023 1023 0, .brx .always (.v 4)),
        (word 0x003 63 0 6 1023 0 300 0, .call .always (.v 6) 300), (word 0x004 63 0 6 10 1023 1023 0, .callx .always (.v 6) (.v 10)),
        (word 0x005 63 0 1023 1023 1023 1023 0, .ret .always .z)],
      ∀ s ∈ [ready p.1 [], handling (ready p.1 []) false], Old s p.2 ∧
        ∃ dst ∈ (goesTo (wx s) (cx s) (branchMask (wx s) (cx s) p.2) p.2).toList, dst 0 % 8 = 0 ∧ dst 31 % 8 = 0) ∧
    (∀ p ∈ [(word 0x002 63 0 1023 4 1023 1023 0, Instr.brx .always (.v 4)), (word 0x004 63 0 6 4 1023 1023 0, .callx .always (.v 6) (.v 4)),
        (word 0x005 63 0 1023 4 1023 1023 0, .ret .always (.v 4))],
      let s := ready p.1 [(4, steps 0 4)]
      Old s p.2 ∧ (branchMask (wx s) (cx s) p.2).getLsbD 1 = true ∧
        ∃ dst ∈ (goesTo (wx s) (cx s) (branchMask (wx s) (cx s) p.2) p.2).toList, dst 1 % 8 ≠ 0 ∧ dst 0 % 8 = 0) := by decide +kernel

/-- The end of a clause: before its last instruction, at it with lanes, and with none left in each of the two cases. -/
theorem witness_clause_end : let s := ready (word 0 63 0 1023 1023 1023 1023 0) []
    let past := onWarp s fun x => { x with cursor := x.cursor.map fun c => { c with pc := 16 } }
    let gone := onWarp s fun x => { x with cursor := x.cursor.map fun c => { c with live := 0 } }
    (s.warp? w0 = some (wx s) ∧ (wx s).cursor = some (cx s) ∧ (cx s).live ≠ 0 ∧ (cx s).pc < (cx s).last) ∧
    (past.warp? w0 = some (wx past) ∧ (wx past).cursor = some (cx past) ∧ (cx past).live ≠ 0 ∧ (cx past).last ≤ (cx past).pc) ∧
    (gone.warp? w0 = some (wx gone) ∧ (wx gone).cursor = some (cx gone) ∧ (cx gone).live = 0 ∧ (wx gone).fr = [] ∧ (wx gone).window = [] ∧
      (wx gone).status = .running ∧ (wx gone).halt = none) ∧
    (cx (handling gone false)).live = 0 ∧ (wx (handling gone false)).status ≠ .running := by decide +kernel

/-- ExitYieldAndWait: with an empty and a full open batch; with and without a pre-emption; below, at and above the count. -/
theorem witness_exit_yield_wait :
    (∀ l ∈ [[], List.range 255],
      let s := onWarp (ready (word 0x006 63 0 1023 1023 1023 1023 0) []) fun x => { x with openBatch := l }
      Old s (.exit .always) ∧ ((wx s).openBatch = [] ∨ (wx s).ctr.cb < 255)) ∧
    (∀ b ∈ [true, false], Old (onCtx (ready (word 0x007 63 0 1023 1023 1023 1023 0) []) fun c => { c with preq := b }) (.yield .always)) ∧
    (∀ n ∈ [17, 18],
      let s := onWarp (ready (word 0x008 63 0 1023 1023 1023 1023 0x8A) []) fun x => { x with ctr := { x.ctr with cb := n } }
      Old s (.wait .always .cb 17) ∧ (wx s).ctr.get .cb = n) := by decide +kernel

/-- TeamBarriers: counts at the bound and above, both phases, an arrival that completes and one that does not. -/
theorem witness_team_barriers :
    (∀ n ∈ [64, 65, 1],
      let s := ready (word 0x009 63 0 7 1023 8 1023 9) [(8, same (BitVec.ofNat 32 n))]
      Old s (.bara .always (.v 7) (.v 8) 9) ∧ amSorted s.warps = true ∧ s.olderDone w0 (wx s) (wx s).seq .t = true ∧
        ∃ tm ∈ (s.team? 0).toList, tm.bars[9]? = some Bar.start ∧
          (arrived Bar.start n (liveWarps s 0) (wx s).sigs.t).phase = (if n = 1 then 1 else 0)) ∧
    (∀ n ∈ [0, 1], Old (ready (word 0x00A 63 0 1023 7 1023 1023 15) [(7, same (BitVec.ofNat 32 n))]) (.barw .always (.v 7) 15)) ∧
    (∀ n ∈ [0, 2],
      let s := ready (word 0x00B 63 0 1023 1023 11 1023 2) [(11, same (BitVec.ofNat 32 n))]
      Old s (.bars .always (.v 11) 2) ∧ (wx s).stage = [] ∧ s.olderDone w0 (wx s) (wx s).seq .t = true) := by decide +kernel

/-- StageRings: an empty and a full stage, each phase, the last of a ring's stages and one it does not have. -/
theorem witness_stage_rings :
    (∀ full ∈ [true, false],
      let s := onTeam (ready (word 0x00C 63 0 1023 1023 1023 1023 0xF5) [])
          (fun tm => withStage tm 5 15 { Stage.start with full := full })
      Old s (.rput .always 5 15) ∧ s.olderDone w0 (wx s) (wx s).seq .t = true ∧
        ∃ g ∈ (s.stage? 0 5 15).toList, g.full = full ∧ s.ringTurn w0 5 15 g = true) ∧
    (∀ ph ∈ [true, false],
      let s := onTeam (ready (word 0x00D 63 0 1023 1023 1023 1023 (if ph then 0x3E else 0x36)) [])
          (fun tm => withStage tm 6 3 { Stage.start with full := true, phase := if ph then 1 else 0 })
      Old s (.rget .always 6 3 ph) ∧ ∃ g ∈ (s.stage? 0 6 3).toList, g.full = true ∧ g.phase = (if ph then 1 else 0) ∧
        s.ringTurn w0 6 3 g = true) ∧
    (let s := ready (word 0x00E 63 0 1023 1023 1023 1023 0xF0) []
     Old s (.rrel .always 0 15) ∧ (s.stage? 0 0 15).isSome ∧ (s.gridOf? 0).isSome ∧ s.olderDone w0 (wx s) (wx s).seq .t = true) ∧
    (∀ p ∈ [(word 0x00C 63 0 1023 1023 1023 1023 0x10, Instr.rput .always 0 1), (word 0x00D 63 0 1023 1023 1023 1023 0x10, .rget .always 0 1 false),
        (word 0x00E 63 0 1023 1023 1023 1023 0x10, .rrel .always 0 1)],
      let s := onTeam (ready p.1 []) fun tm => { tm with rings := [[Stage.start]] }
      Old s p.2 ∧ s.stage? 0 0 1 = none) := by decide +kernel

/-- SpecialRegisterWrites: each register; a mapping accepted and one refused. -/
theorem witness_special_writes :
    (let s := ready (word 0x010 63 0 1023 15 1 1023 0) []
     Old s (.swrite .always 15 (.v 1)) ∧ (s.team? 0).isSome) ∧
    Old (ready (word 0x010 63 0 1023 41 1 1023 0) []) (.swrite .always 41 (.v 1)) ∧
    (∀ sr ∈ [32, 39, 40], ∀ own ∈ [0xFF, 0],
      let s := (ready (word 0x010 63 0 1023 sr 2 1023 0) [(3, same 0x87000001)]).modPart 0 fun p =>
        { p with pdom := own }
      Old s (.swrite .always sr (.v 2))) ∧
    (let p : Part := { Part.reset with stackMask := 4095, hubMask := 65535, pdom := 1 }
     let h : List DWord := [0x87000001FFFFFFFF#64, 0, 0, 0, 0, 0, 0, 0]
     mapRefused p (mapWrite p 0 h 40 0).1 (mapWrite p 0 h 40 0).2 = false ∧
     mapRefused p (mapWrite p 0 h 40 1).1 (mapWrite p 0 h 40 1).2 = true) := by decide +kernel

/-- AllocationChanges: no growth, growth that fits and growth that does not, with and without `.nw`; the allocation kept, lowered. -/
theorem witness_allocation :
    (∀ nw ∈ [true, false], ∀ n ∈ [23, 24],
      let s := onWarp (ready (word 0x011 63 0 3 1023 1023 1023 (n + if nw then 32 else 0)) []) fun x => { x with g := 23 }
      Old s (.reggrow .always (.v 3) n nw) ∧ amSorted s.warps = true ∧
        (s.growWaiting (wx s).core).takeWhile (fun v => v != w0) = [] ∧ 32 * (n - (wx s).g) ≤ s.freeRegs (wx s).core) ∧
    (∀ nw ∈ [true, false],
      let s := onWarp (ready (word 0x011 63 0 3 1023 1023 1023 (24 + if nw then 32 else 0)) []) fun x => { x with g := 1 }
      let s := { s with warps := s.warps ++ (List.range 40).map fun k => (k + 1, { wx s with g := 24 }) }
      Old s (.reggrow .always (.v 3) 24 nw) ∧ amSorted s.warps = true ∧ (wx s).g < 24 ∧ s.freeRegs (wx s).core < 32 * (24 - (wx s).g)) ∧
    ∀ n ∈ [1, 24], Old (ready (word 0x012 63 0 1023 1023 1023 1023 n) []) (.regshrink .always n) := by decide +kernel

/-- A package whose warp launches, from one lane, the record at 0x1000. -/
def launching : State :=
  ((poke (oneLane (ready (word 0x014 63 0 2 4 1023 1023 0) [(4, same 0x1000)])) 0x1000 (fetchRecord 0))).modQueue 0 fun q =>
    { q with en := true }

/-- LaunchAndWait: a record launched; a handle that is live and one that is not. -/
theorem witness_launch :
    (let s := launching
     let i := Instr.launch .always (.v 2) (.v 4)
     let r := (laneList (act s i)).foldl (checkRecord w0 (wx s).seq ((wx s).pushed (cx s) i) (.v 4)) (.fine false, disp s i)
     Old s i ∧ (wx s).stage = [] ∧ r.1 = .fine false ∧ r.2.olderDone w0 ((wx s).pushed (cx s) i) (wx s).seq .c = true ∧
     (launchLanes w0 (wx s).seq (.v 2) (.v 4) (laneList (act s i))
       ((r.2.release w0 .c).2.modWarp w0 fun y => { y with stage := [32] })).1 = none) ∧
    (let s := launching
     (match (s.readVa w0 0 0x1000 512).1 with
      | .bytes l => bytesNat l 0x050 8 == 0
      | _ => false) = true ∧ ((s.readVa w0 0 0x1000 512).2.queue 0).en = true ∧
       ((s.readVa w0 0 0x1000 512).2.queue 0).dev.length < 256) ∧
    ∀ h ∈ [1, 5], ∀ nb ∈ [true, false],
      let s := ready (word 0x015 63 0 5 6 1023 1023 (if nb then 1 else 0)) [(6, same (BitVec.ofNat 32 h))]
      Old s (.lwait .always (.v 5) (.v 6) nb) ∧ s.handleLive (s.ctxOf 0) h = (h == 1) := by decide +kernel
/-- SoftwareTraps: with lanes active, and with none; and a record of each to return to. -/
theorem witness_software_traps :
    (∀ p ∈ [(word 0x016 63 0 1023 1023 1023 1023 0xA5, Instr.trap .always 0xA5), (word 0x017 63 0 1023 1023 1023 1023 0, .brk .always 0)],
      Old (ready p.1 []) p.2) ∧
    (let s := ready (word 0x017 5 0 1023 1023 1023 1023 255) []
     oldest s (.brk (.pred 5 false) 255) = true ∧ act s (.brk (.pred 5 false) 255) = 0) ∧
    ∃ h ∈ (wx (handling (ready (word 0x018 63 0 1023 1023 1023 1023 0) []) false)).handler.toList,
      h.trec.hdr = false ∧ ({ h.trec with resume := 0 }).resume = 0 ∧ h.fcur.isSome := by decide +kernel

/-- A package whose team has a handler. -/
def handled (w : DWord) (regs : AMap VReg) : State := onTeam (ready w regs) fun tm => { tm with thnd := 0x100 }

/-- TrapEntry: with a bank free and with none; in handler state, and without a handler. -/
theorem witness_trap_entry :
    (∀ l ∈ [List.replicate 8 none, List.replicate 7 (some w0) ++ [none], List.replicate 8 (some w0)],
      let s := (handled (word 0 63 0 1023 1023 1023 1023 0) []).modCore 0 fun c => { c with banks := l }
      s.warp? w0 = some (wx s) ∧ w0.widx < 64 ∧ amSorted s.warps = true ∧ (wx s).inHandler = false ∧ s.thndOf 0 ≠ 0 ∧
        (∀ e ∈ s.warpsOn (wx s).core, State.waitsBank e.2 = false) ∧
        (s.core (wx s).core).banks.findIdx? Option.isNone = (if l = List.replicate 8 none then some 0
          else if l = List.replicate 8 (some w0) then none else some 7)) ∧
    (let s := handling (handled (word 0 63 0 1023 1023 1023 1023 0) []) false
     s.warp? w0 = some (wx s) ∧ (wx s).inHandler = true ∧ (s.team? 0).isSome) ∧
    (let s := ready (word 0 63 0 1023 1023 1023 1023 0) []
     s.thndOf 0 = 0 ∧ (wx s).inHandler = false ∧ (s.team? 0).isSome) := by decide +kernel

/-- TrapReturn: a fault of an instruction and of a selection, with and without `.skip`; a bank freed, and one kept. -/
theorem witness_trap_return :
    (∀ hdr ∈ [true, false], ∀ skip ∈ [true, false],
      let s := handling (ready (word 0x018 63 0 1023 1023 1023 1023 (if skip then 1 else 0)) []) hdr
      Old s (.tret .always skip) ∧ (wx s).handler.isSome) ∧
    (∀ ids ∈ [[], [5]],
      let s := onWarp (ready (word 0 63 0 1023 1023 1023 1023 0) []) fun x => { x with
        drains := [(2, ids)], tileOps := [{ id := 5, instr := .mzero .always 0, mask := 1, tile := 0, aRegs := [], cRegs := [], addr := 0, len := 0, places := [] }] }
      s.warp? w0 = some (wx s) ∧ ((wx s).drains.any fun d => d.1 == 2 && d.2.all fun id => !State.unbound (wx s) id) = decide (ids = [])) := by
  decide +kernel

/-- TranslationsInvalidated: a context of the partition, one of none; a host's request of each kind. -/
theorem witness_translations :
    (∀ all ∈ [true, false], ∀ n ∈ [0, 1],
      let s := ready (word 0x01A 63 0 1023 12 13 1023 (if all then 1 else 0)) [(13, same (BitVec.ofNat 32 n))]
      Old s (.tlbinv .always (.v 12) (.v 13) all) ∧ (s.ctx n).v = (n == 1) ∧ (s.ctx n).part = s.partOf 0 ∧
        s.olderDone w0 (wx s) (wx s).seq .c = true) ∧
    (∀ v ∈ [2 ^ 63 + 1, 2 ^ 63 + 2 ^ 62 + 1], (State.reset.setReady { Ready.reset with compute := true }).ready.compute = true ∧
      (BitVec.ofNat 64 v).getLsbD 63 = true) := by decide +kernel
/-- No operation of a warp carries a number still to be given. -/
abbrev FreshB (x : Warp) : Prop := (∀ e ∈ x.window, e.seq < x.seq) ∧ (∀ l ∈ x.loads, l.id < x.seq) ∧
  (∀ o ∈ x.stores, o.id < x.seq) ∧ ∀ o ∈ x.skOps, o.id < x.seq

theorem fresh_sound {x : Warp} (h : FreshB x) : Fresh x := ⟨h.1, h.2.1, h.2.2.1, h.2.2.2⟩

/-- A package with the first page of its team's scratch resident. -/
def paged (s : State) : State :=
  (onTeam s fun tm => { tm with stt := [(0, { slot := 0, hass := false, used := true, own := 0, frame := 0, dirty := false, res := true })] }).modCore
    0 fun c => { c with frames := [(0, { team := 0, page := 0, last := 0 })] }

/-- Whether a translation succeeds, with a leaf that meets a test. -/
def leafIs (r : Xl × State) (f : Tlb → Bool) : Bool :=
  match r.1 with
  | .ok e => f e
  | _ => false

/-- A package whose one leaf holds these fields. -/
def leafed (s : State) (e : Nat) : State := s.modMem fun m => { m with hbm := Memory.write m.hbm 0x30000 (leBytes 8 e) }

/-- LaneChecks: a misaligned address; a scratch access up to its size and one past it, in each shared space; the first address
beyond 57 bits and the last below; a leaf of local memory, one under an open shadow, and one of another package. -/
theorem witness_lane_checks : let s := paged (ready (word 0 63 0 1023 1023 1023 1023 0) [])
    (2 % 4 ≠ 0) ∧
    (s.spaceSize 0 .sc = 2048 ∧ 2044 % 4 = 0 ∧ 2044 + 4 ≤ s.spaceSize 0 .sc ∧ s.spaceSize 0 .sc < 2048 + 4 ∧
      (∀ a ∈ laneAccs 31 .ln 8 16, ∀ p ∈ (s.pageAt 0 a.loc).toList, s.pageReady 0 p (s.coreOf w0) = true) ∧
      ∀ a ∈ laneAccs 31 .sc 2044 4, ∀ p ∈ (s.pageAt 0 a.loc).toList, s.pageReady 0 p (s.coreOf w0) = true) ∧
    (2 ^ 57 % 8 = 0 ∧ (2 ^ 57 - 8) % 8 = 0 ∧ 2 ^ 57 - 8 < 2 ^ 57) ∧
    ∀ e ∈ [0x1000007, 0x1000407, 0x1000107], leafIs ((leafed s e).xlate 0 1 8 .store) (fun t =>
      pteType t.leaf == e / 2 ^ 8 % 4 && pteTwin t.leaf == e / 2 ^ 10 % 4) = true := by decide +kernel

/-- The checks of the lanes of a load of a small state. -/
def loadChecks (s : State) (i : Instr) : List (Nat × LaneRes) :=
  match loadForm (wx s) i with
  | none => []
  | some (sp, n, _, ea, _, win) =>
    ((disp s i).laneChecks (act s i) fun k t => t.laneCheck w0 sp false n k (ea k) (if win then some 0 else none)).1
/-- And those of a store. -/
def storeChecks (s : State) (i : Instr) : List (Nat × LaneRes) :=
  match storeForm (wx s) i with
  | none => []
  | some f => ((disp s i).laneChecks (act s i) fun k t =>
      t.laneCheck w0 f.space true f.bytes k (f.ea k) (if f.window then some (leNat (f.data k).1) else none)).1
/-- The lowest failing lane. -/
def firstFail (l : List (Nat × LaneRes)) : Option (Nat × Nat × Nat) :=
  (l.filterMap fun r => match r.2 with | .fail code a => some (r.1, code, a) | _ => none).head?

/-- LoadsIssue: each instruction in global memory and in scratch, every lane past its checks; and no lane past them. -/
theorem witness_loads :
    (∀ p ∈ [(word 0x100 63 0 12 22 0 0 8, Instr.ld .always .gl .b32 (.v 12) (.v 22) 0), (word 0x100 63 0 12 22 0 0 0x30, .ld .always .sc .b128 (.v 12) (.v 22) 0),
        (word 0x103 63 0 12 22 0 16 0x0E, .ldacq .always .gl .b64 .p (.v 12) (.v 22) 16)],
      let s := paged (ready p.1 [(22, steps 0 16)])
      Old s p.2 ∧ FreshB (wx s) ∧ (loadForm (wx s) p.2).isSome ∧ allPass (loadChecks s p.2) = true) ∧
    (let s := ready (word 0x100 63 0 12 22 0 0 8) [(22, steps 2 4)]
     let i := Instr.ld .always .gl .b32 (.v 12) (.v 22) 0
     Old s i ∧ FreshB (wx s) ∧ (wx s).ctr.ld < 255 ∧ doneLanes (loadChecks s i) = 0 ∧ firstFail (loadChecks s i) = some (0, 0x13, 2)) := by
  decide +kernel

/-- StoresIssue: each instruction, every lane past its checks; and an atomic that deterministic mode refuses. -/
theorem witness_stores :
    (∀ p ∈ [(word 0x101 63 0 12 22 1 1023 5, Instr.st .always .gl .b16 true (.v 12) (.v 22) 2047),
        (word 0x104 63 0 12 22 0 0 0x29, .strel .always .sc .b32 .c (.v 12) (.v 22) 0),
        (word 0x105 63 0 12 22 24 3 0x3C, .atom .always .or ⟨.gl, true, .ar, .p⟩ (.v 12) (.v 22) (.v 24)),
        (word 0x106 63 0 12 22 25 27 0x4A, .atomc .always ⟨.sc, false, .acq, .c⟩ (.v 12) (.v 22) (.v 25) (.v 27)),
        (word 0x107 63 0 1023 22 25 10 0x16, .red .always .fadd ⟨.gl, false, .rel, .s⟩ (.v 22) (.v 25))],
      let s := paged (ready p.1 [(22, steps (if p.1.toNat / 2 ^ 55 = 0x101 then 1 else 0) 8)])
      Old s p.2 ∧ FreshB (wx s) ∧ (storeForm (wx s) p.2).isSome ∧ allPass (storeChecks s p.2) = true) ∧
    (let s := (ready (word 0x107 63 0 1023 22 25 10 0x16) []).modGrid 0 fun g => { g with record := g.record.set 2 1 }
     let i := Instr.red .always .fadd ⟨.gl, false, .rel, .s⟩ (.v 22) (.v 25)
     Old s i ∧ (storeForm (wx s) i).isSome ∧ ∃ g ∈ (s.gridOf? 0).toList, g.2.det = true) := by decide +kernel

/-- A store of the warp that has still to perform in lane 0, at a byte of another package or of this one. -/
def openStore (there : Bool) : StoreOp :=
  { id := 0, kind := .plain, rel := none, acq := none, todo := 1, acks := 0, released := false, sig := 0, lost := [],
    accs := [{ acc := { lane := 0, ea := 0, loc := if there then .remote 5 0 0 else .mem 0x80040 0 0, len := 4 }, bytes := [], opnd := 0, cmp := 0 }] }

/-- Fences: with every older access performed and with a store open, at each scope; `FENCEA` with a write unsent, one
unacknowledged, and none. -/
theorem witness_fences :
    (∀ p ∈ [(0, Scope.w), (1, .t), (2, .c), (3, .p), (4, .s)], ∀ l ∈ [[], [openStore false]],
      let s := onWarp (ready (word 0x108 63 0 1023 1023 1023 1023 p.1) []) fun x => { x with seq := 5, stores := l }
      Old s (.fence .always p.2) ∧ s.olderDone w0 (wx s) (wx s).seq p.2 = decide (l = [])) ∧
    (∀ l ∈ [[], [openStore true]],
      let s := onWarp (ready (word 0x109 63 0 1023 1023 1023 1023 10) []) fun x => { x with seq := 5, stores := l }
      Old s (.fencea .always 10) ∧ (l ≠ [] → ∃ o ∈ (wx s).stores, o.id < (wx s).seq ∧ ∃ q ∈ o.accs,
        o.todo.getLsbD q.acc.lane = true ∧ q.acc.loc = .remote 5 0 0)) := by decide +kernel

/-- CacheInstructions: no byte, a range that ends at 2^57 and one past it; a prefetch of local memory in one lane; a slice of the
partition and one of none. -/
theorem witness_caches :
    (∀ n ∈ [0, 8, 9], ∀ p ∈ [(0x10A, Instr.cwb .always true (.v 8) (.v 7)), (0x10B, .cinv .always true (.v 8) (.v 7))],
      let s := ready (word p.1 63 0 1023 8 7 1023 1) [(7, same (BitVec.ofNat 32 n)), (8, same 0xFFFFFFF8), (9, same 0x01FFFFFF)]
      Old s p.2 ∧ ((wx s).rd64 (.v 8) 0).toNat + n = 2 ^ 57 + n - 8 ∧ (∀ o ∈ (wx s).stores, o.id < (wx s).seq → o.todo = 0) ∧
        s.flushHeld (wx s).core = false) ∧
    (let s := oneLane (ready (word 0x10C 63 0 1023 8 0 128 1) [])
     Old s (.cpf .always true (.v 8) 128) ∧ act s (.cpf .always true (.v 8) 128) = laneBit 0 ∧
       leafIs ((disp s (.cpf .always true (.v 8) 128)).xlate 0 1 128 .load) (fun e => decide (State.locOf e 128 = .mem 0x80080 0 0)) = true) ∧
    (∀ n ∈ [0, 127], ∀ m ∈ [65535, 0x7FFE],
      let s := (ready (word 0x10D 63 0 1023 1023 7 1023 0) [(7, same (BitVec.ofNat 32 n))]).modPart 0 fun p => { p with hubMask := m }
      Old s (.slcdr .always (.v 7)) ∧ (s.part (s.partOf 0)).hubMask.testBit (n / 8) = decide (m = 65535) ∧
        (disp s (.slcdr .always (.v 7))).sliceBusy n = false) := by decide +kernel
/-- The hypotheses of CopiesIssue that let an operation join its batch: rows, aligned sides and sizes, and checks of both sides
that pass. -/
def joins (s : State) (i : Instr) : Bool :=
  match copyForm (wx s) (act s i) i with
  | none => false
  | some p =>
    !p.rows.isEmpty && p.dst % 4 == 0 && p.src % 4 == 0 && p.sizes.all (fun n => n % 4 == 0) && decide (p.row ≤ 4096) &&
      p.ntf.all (fun k => s.trigIn (s.partOf 0) k) &&
      match (disp s i).sideCheck w0 p.ds true (p.kind == .put) ((p.rows.head?.map CopyRow.dst).getD 0) (dstHull p) with
      | (.ok _, _, u) =>
        match u.sideCheck w0 p.ss false (p.kind == .get) ((p.rows.head?.map CopyRow.src).getD 0) (srcHull p) with
        | (.ok _, _, v) => decide ((v.core 0).scoreboard.length < 64) && decide ((wx s).openBatch.length < 255)
        | _ => false
      | _ => false

/-- CopiesIssue: each instruction joins its batch. -/
theorem witness_copies_join :
    (∀ p ∈ [(word 0x140 63 0 1023 6 9 8 0x20, Instr.cpy .always .sc .gl .z (.v 6) (.v 9) 8),
        (word 0x142 63 0 5 6 9 0 0x20, .cpyx .always .sc .gl (.v 5) (.v 6) (.v 9) 0),
        (word 0x143 63 0 4 7 9 1 0x04, .cpyo .always .gl .sc (.v 4) (.v 7) (.v 9) 1)],
      let s := oneLane (ready p.1 [(9, same 4), (10, same 4)])
      Old s p.2 ∧ joins s p.2 = true) ∧
    (let s := (ready (word 0x141 63 0 4 6 9 3 0x08) [(9, same 0x00020004), (10, same 4), (11, same 4)]).modGrid 0 fun g =>
        { g with record := g.record.take 0x3C ++ leBytes 4 2048 ++ g.record.drop 0x40 }
     Old s (.cpyt .always .gl .cl (.v 4) (.v 6) (.v 9) 3) ∧ joins s (.cpyt .always .gl .cl (.v 4) (.v 6) (.v 9) 3) = true) ∧
    (∀ p ∈ [(word 0x149 63 0 4 7 10 2 0x05, Instr.put .always .sc true (.v 4) (.v 7) (.v 10) 2),
        (word 0x14A 63 0 7 4 10 2 0x20, .get .always .sc false (.v 7) (.v 4) (.v 10) 2)],
      let s := (leafed (ready p.1 [(10, same 256), (11, same 5)]) (5 * 2 ^ 51 + 0x1000107)).modPart 0 fun q => { q with trigFirst := 5, trigCnt := 1 }
      Old s p.2 ∧ joins s p.2 = true) := by decide +kernel

/-- CopiesIssue: no byte to move; each side misaligned; a size and a row that are refused, and a counter; a scratch side past its
end. -/
theorem witness_copies_refused :
    (∀ r ∈ [(0, 0, 0), (2, 0, 4), (0, 2, 4), (0, 0, 6), (0, 2048 - 128, 4), (0, 2048 - 124, 4)],
      let s := ready (word 0x140 63 0 5 6 9 8 0x20) [(5, same (BitVec.ofNat 32 r.2.1)), (6, same (BitVec.ofNat 32 r.1)), (9, same (BitVec.ofNat 32 r.2.2))]
      let i := Instr.cpy .always .sc .gl (.v 5) (.v 6) (.v 9) 8
      Old s i ∧ ∃ p ∈ (copyForm (wx s) (act s i) i).toList, (p.rows = [] ↔ r.2.2 = 0) ∧ p.dst = r.2.1 + 128 ∧ p.src = r.1 ∧
        (r.2.2 = 4 → r.2.1 = 2048 - 124 → s.spaceSize 0 .sc < (dstHull p).2) ∧ (r.2.2 = 4 → r.2.1 = 2048 - 128 → (dstHull p).2 ≥ s.spaceSize 0 .sc)) ∧
    (let s := ready (word 0x142 63 0 5 6 9 0 0x20) [(10, same 4100)]
     let i := Instr.cpyx .always .sc .gl (.v 5) (.v 6) (.v 9) 0
     Old s i ∧ ∃ p ∈ (copyForm (wx s) (act s i) i).toList, p.rows ≠ [] ∧ p.row = 4100) ∧
    (let s := ready (word 0x149 63 0 4 7 10 2 0x05) [(10, same 256)]
     let i := Instr.put .always .sc true (.v 4) (.v 7) (.v 10) 2
     Old s i ∧ ∃ p ∈ (copyForm (wx s) (act s i) i).toList, p.ntf = some 0 ∧ s.trigIn (s.partOf 0) 0 = false) := by decide +kernel

/-- An engine operation of the warp at a stage. -/
def copyAt' (st : CopyStage) : CopyOp :=
  { id := 0, pc := 0, word := 0, mask := 1, kind := .copy, ds := .gl, ss := .gl, rows := [⟨0x1000, 0x2000, 4⟩], ntf := none, fid := 0,
    stage := st, acks := 0, paused := [], lost := [] }

/-- Batches: an empty and a nonempty open batch; a serial that waits and one that does not; a batch landed and one not. -/
theorem witness_batches :
    (∀ l ∈ [[], [0]],
      let s := onWarp (ready (word 0x144 63 0 5 1023 1023 1023 0) []) fun x => { x with openBatch := l }
      Old s (.cseal .always (.v 5)) ∧ (wx s).ctr.cb < 255) ∧
    (∀ n ∈ [7, 8],
      let s := onWarp (ready (word 0x145 63 0 1023 5 1023 1023 0) [(5, same (BitVec.ofNat 32 n))]) fun x => { x with batches := [⟨7, [0]⟩] }
      Old s (.cwait .always (.v 5)) ∧ ((∃ b ∈ (wx s).batches, b.serial = n) ↔ n = 7)) ∧
    (∀ st ∈ [CopyStage.issued, .landed],
      let s := onWarp (ready (word 0 63 0 1023 1023 1023 1023 0) []) fun x => { x with batches := [⟨7, [0]⟩], copies := [copyAt' st] }
      (s.warp? w0).isSome ∧ ((wx s).batches.find? fun b => b.serial == 7) = some ⟨7, [0]⟩ ∧
        ((∀ o ∈ (wx s).copies, o.id ∈ [0] → o.stage = .landed) ↔ st = .landed)) := by decide +kernel

/-- The leaves of a range of a small state. -/
def leaves (s : State) (i : Instr) (va n : Nat) : List (Nat × Option Tlb) := ((disp s i).warpLeaves w0 va n).1

/-- ShadowInstructions: each instruction over a leaf at rest, with and without a twin to give, and over one that R398 refuses; a
leaf opened, published and dropped. -/
theorem witness_shadows :
    (∀ p ∈ [(0x146, 0, Instr.shopen .always (.v 8) (.v 7)), (0x147, 3, .publish .always .s (.v 8) (.v 7)), (0x148, 0, .shdrop .always (.v 8) (.v 7))],
      ∀ e ∈ [0x1000007, 0x1000107], ∀ twins ∈ [[], [9]],
      let s := (leafed (ready (word p.1 63 0 1023 8 7 1023 p.2.1) [(7, same 64)]) e).modPart 0 fun q => { q with twins := twins }
      let u := ((disp s p.2.2).warpLeaves w0 0 64).2
      Old s p.2.2 ∧ (State.leavesBad (leaves s p.2.2 0 64) (s.isSys 0) = if e = 0x1000007 then none else some (0x03, 0)) ∧
        (e = 0x1000007 → (u.openLeaves 0 (State.leavesOf (leaves s p.2.2 0 64))).1 = decide (twins = [9])) ∧
        u.engWrites 0 0 64 = false ∧ u.olderDone w0 ((wx s).pushed (cx s) p.2.2) (wx s).seq .s = true ∧
        ∀ e ∈ State.leavesOf (leaves s p.2.2 0 64), u.publishHeld (s.partOf 0) e = false) ∧
    (let s := (ready (word 0 63 0 1023 1023 1023 1023 0) []).modPart 0 fun q => { q with twins := [9] }
     let e : Tlb := { ctx := 1, vpage := 0, big := false, leaf := 0x1000007, eaddr := 0x30000 }
     let f : Tlb := { e with leaf := 0x1000407 }
     pteTwin e.leaf = 0 ∧ (s.part (s.partOf 0)).twins.find? (fun f => !s.frameBusy f) = some 9 ∧ pteTwin f.leaf = 1 ∧
       ∃ t ∈ (s.openLeaf 0 e).1.toList, (t.shadowOf 0x30000).isSome) := by decide +kernel

/-- A package that belongs to a tree, broken or not. -/
def inTree (s : State) (broken : Bool) : State :=
  s.modFab fun f => { f with trees := [{ ident := 3, members := [0, 1], broken := broken, asg := 1, cmp := 0, zeroSteps := [] }] }

/-- FabricSends: a tree there, broken and missing, sizes at both ends; a grid bound to it and one not; an operand in range and not. -/
theorem witness_fabric_sends :
    (∀ n ∈ [0, 1, 4096, 4097], ∀ broken ∈ [true, false],
      let s := inTree (ready (word 0x14B 63 0 1023 8 10 7 0) [(10, same (BitVec.ofNat 32 n)), (11, same 0x30005)]) broken
      Old s (.mcast .always (.v 8) (.v 10) (.v 7)) ∧ (s.treeOf 3).map Tree.broken = some broken ∧ s.treeOf 4 = none ∧
        nextWord (wx s) (.v 10) 1 0 / 65536 = 3) ∧
    (∀ c ∈ [0, 1], ∀ n ∈ [0, 1], ∀ broken ∈ [true, false],
      let s := inTree ((ready (word 0x151 63 0 1023 5 1023 1023 0) [(5, same (BitVec.ofNat 32 n))]).modGrid 0 fun g =>
        { g with record := g.record.take 0x74 ++ leBytes 4 3 ++ leBytes 2 0 ++ leBytes 1 c ++ g.record.drop 0x7B }) broken
      Old s (.coll .always (.v 5)) ∧ ∃ g ∈ (s.gridOf? 0).toList, g.2.cben = decide (c = 1) ∧ g.2.total = 1 ∧ (s.treeOf g.2.tree).isSome) ∧
    (∀ v ∈ [2 ^ 29 - 2 ^ 16 + 4095, 2 ^ 29, 4096],
      let s := ready (word 0x14E 63 0 1023 8 7 6 0xFF) [(7, same (BitVec.ofNat 32 v))]
      Old s (.send .always 256 (.v 8) (.v 7) (.v 6)) ∧ FreshB (wx s) ∧ ((wx s).rd (.v 7) 0).toNat = v) := by decide +kernel

/-- A registration, an armed operation, a message. -/
def landing (n : Nat) : Landing := { ctx := 1, ident := n, buf := 0, len := 256, ctr := none, closed := false }
def armedOp (due : Bool) : Armed :=
  { handle := 1, ctr := 5, thr := 10, ctx := 1, team := 0, order := 1, opRec := [], due := due }
def slotPosted (w : DWord) : RSlot :=
  { posted := true, order := 0, src := 0, srcMask := 0, tag := 0, tagMask := 0, buf := 0x1000, ctx := 1, len := 256, word := w }
def message (s : State) : Packet := { s.packetTo .message 0 with ctx := 1, data := [(0, 7)] }

/-- LandingAndReceives: a buffer of each kind; with the table full, the identifier taken and free; a slot free, the last one and
none, a message waiting and none; a slot polled before and after its message, and one there is not. -/
theorem witness_landings :
    (∀ r ∈ [(0, 256), (128, 256), (0, 0), (0, 100)], ∀ l ∈ [[], [landing 0], (List.range 1024).map fun k => landing (k + 1)],
      let s := (ready (word 0x14C 63 0 5 8 7 6 0) [(8, same (BitVec.ofNat 32 r.1)), (7, same (BitVec.ofNat 32 r.2))]).modFab fun f => { f with landings := l }
      Old s (.lreg .always (.v 5) (.v 8) (.v 7) (.v 6)) ∧ s.ctxOf 0 = 1 ∧ ((wx s).rd64 (.v 8) 0).toNat = r.1 ∧ ((wx s).rd (.v 7) 0).toNat = r.2) ∧
    (∀ b ∈ [[], [(2, 0, 5, 4)]],
      let s := (ready (word 0x14D 63 0 1023 1023 7 1023 0) []).modFab fun f => { f with landings := [{ landing 0 with begun := b }] }
      Old s (.ldereg .always (.v 7)) ∧ s.ctxOf 0 = 1 ∧ (∃ q ∈ s.fab.landings, q.ctx = 1 ∧ q.ident = 0 ∧ (q.begun = [] ↔ b = []))) ∧
    (∀ l ∈ [[], (List.range 63).map fun k => (k, slotPosted 0), (List.range 64).map fun k => (k, slotPosted 0)], ∀ some' ∈ [true, false],
      let s := onTeam (ready (word 0x14F 63 0 5 8 7 6 0) []) fun tm => { tm with rslots := l }
      let s := s.modFab fun f => { f with overflow := if some' then [message s] else [] }
      Old s (.rpost .always 1 (.v 5) (.v 8) (.v 7) (.v 6)) ∧ (s.team? 0).isSome ∧
        (disp s (.rpost .always 1 (.v 5) (.v 8) (.v 7) (.v 6))).ctxHeld 1 0 1 = false ∧
        (s.fab.overflow.find? (State.matches' { slotPosted 0 with len := 1 })).isSome = some') ∧
    (∀ n ∈ [0, 63, 64], ∀ done ∈ [true, false],
      let s := onTeam (ready (word 0x150 63 0 6 5 1023 1023 0) [(5, same (BitVec.ofNat 32 n))]) fun tm =>
        { tm with rslots := [(0, slotPosted (if done then 2 ^ 63 else 0))] }
      Old s (.rpoll .always (.v 6) (.v 5)) ∧ FreshB (wx s) ∧ (s.team? 0).isSome) := by decide +kernel

/-- A package whose partition owns counter 5, with an operation record of this kind at 0x1000. -/
def trigger (w : DWord) (kind : Nat) (armed : List Armed) : State :=
  ((poke (ready w [(7, same 5), (6, same 1), (8, same 0x1000)]) 0x1000 (leBytes 8 kind)).modPart 0 fun p => { p with trigFirst := 5, trigCnt := 1 }).modFab
    fun f => { f with armed := armed }

/-- TriggerInstructions: a counter of the partition and one of none; a record that passes its checks and one that does not, with
1,024 armed; an operation that is due and one that is not. -/
theorem witness_triggers :
    (∀ l ∈ [[], [armedOp true], [armedOp false]],
      let s := trigger (word 0x154 63 0 1023 7 6 1023 0) 1 l
      Old s (.tadd .always (.v 7) (.v 6)) ∧ FreshB (wx s) ∧ s.trigIn (s.partOf 0) 5 = true ∧ s.trigIn (s.partOf 0) 4 = false ∧
        s.trigIn (s.partOf 0) 6 = false ∧ s.olderDone w0 (wx s) (wx s).seq .c = true) ∧
    Old (trigger (word 0x155 63 0 6 7 1023 1023 0) 1 []) (.trd .always (.v 6) (.v 7)) ∧
    (∀ k ∈ [1, 4], ∀ l ∈ [[], List.replicate 1024 (armedOp false)],
      let s := trigger (word 0x153 63 0 5 7 6 8 0) k l
      let i := Instr.tarm .always (.v 5) (.v 7) (.v 6) (.v 8)
      Old s i ∧ ((wx s).rd64 (.v 8) 0).toNat % 64 = 0 ∧ (match ((disp s i).readVa w0 (wx s).seq 0x1000 64).1 with
        | .bytes r => opRecOk r == (k == 1)
        | _ => false) = true) ∧
    (0 < State.reset.fab.nextArm ∧ State.reset.fab.nextArm < 2 ^ 32 ∧ State.reset.fab.armed.length < 1024) ∧
    ∀ due ∈ [true, false],
      let s := onWarp (trigger (word 0x156 63 0 5 7 1023 1023 0) 1 [armedOp due]) fun x => { x with regs := [(7, same 1)] }
      Old s (.tdisarm .always (.v 5) (.v 7)) := by decide +kernel
/-- A package about to run an instruction. -/
def running (i : Instr) (regs : AMap VReg) : State := ready ((encode i).getD 0) regs

/-- The same with format slots: FP16 in slots 0 and 1, LQ2 over E4M3 in slots 2 and 3. -/
def slotted (s : State) : State := s.modGrid 0 fun g =>
  { g with record := g.record.take 0x80 ++ leBytes 16 1 ++ leBytes 16 1 ++ leBytes 16 0x060030 ++ leBytes 16 0x10 ++ g.record.drop 0xC0 }

/-- Whether the tile hypotheses hold, with this range. -/
def tiles (s : State) (i : Instr) (f : Option (Nat × Nat) → Bool) : Bool :=
  (tileForm (s.slots w0) (wx s) 0 i).any fun t => f t.range

/-- TileInstructions: each instruction; a range that ends in scratch, one past it, a misaligned one; `MST` to scratch and to memory. -/
theorem witness_tiles :
    (∀ i ∈ [Instr.mzero .always 7, .mrd .always (.v 16) 3 3, .mwr .always 3 (.v 16) 0],
      let s := running i []
      Old s i ∧ FreshB (wx s) ∧ tiles s i (fun r => r.isNone) = true) ∧
    (∀ i ∈ [Instr.mma .always 2 (.v 32) (.v 8) ⟨false, 0, 1, true⟩, .mmas .always 15 (.v 32) (.v 8) (.v 64) ⟨false, 0, 1, true⟩,
        .mmac .always 0 (.v 32) (.v 8) ⟨false, 2, 3, false⟩, .mld .always 3 (.v 8)],
      let s := (slotted (running i [])).modGrid 0 fun g => { g with record := g.record.take 0x38 ++ leBytes 4 65536 ++ g.record.drop 0x3C }
      let t := slotted (running i [])
      Old s i ∧ FreshB (wx s) ∧ tiles s i (fun r => r.any fun q => q.1 % 16 == 0 && q.1 + q.2 ≤ s.spaceSize 0 .sc) = true ∧
        Old t i ∧ tiles t i (fun r => r.any fun q => q.1 % 16 == 0 && t.spaceSize 0 .sc < q.1 + q.2) = true) ∧
    (let i := Instr.mld .always 3 (.v 8)
     Old (running i [(8, same 8)]) i ∧ tiles (running i [(8, same 8)]) i (fun r => r.any fun q => q.1 % 16 != 0) = true) ∧
    (let i := Instr.mst .always 3 false false 0 (.v 8)
     let s := (running i []).modGrid 0 fun g => { g with record := g.record.take 0x38 ++ leBytes 4 8192 ++ g.record.drop 0x3C }
     Old s i ∧ 32 * storedLen (s.slots w0) false 0 = s.spaceSize 0 .sc ∧ (s.core 0).scoreboard.length < 64) ∧
    (let i := Instr.mst .always 3 true true 0 (.v 8)
     ∀ e ∈ [0x1000007, 0x1000005],
       let s := slotted (leafed (running i []) e)
     Old s i ∧ (match ((disp s i).engGl w0 0 (32 * storedLen (s.slots w0) true 0) true none false).1 with
       | .ok _ => e == 0x1000007
       | .fail c _ => e == 0x1000005 && c == 0x12
       | _ => false) = true) ∧
    Old (running (.mrel .always) []) (.mrel .always) := by decide +kernel

/-- A warp with an operation on tile 3. -/
def tiling (i : Instr) (addr len : Nat) : State := onWarp (paged (running (.mrel .always) [])) fun x =>
  { x with tileOps := [{ id := 0, instr := i, mask := 5, tile := 3, aRegs := [], cRegs := [], addr := addr, len := len, places := [] }]
           seq := 1 }

/-- TileExecution: no operation on a tile; one of each kind, with its bytes and without them. -/
theorem witness_tile_execution :
    (∀ i ∈ [Instr.mzero .always 3, .mrd .always (.v 752) 3 3, .mst .always 3 false false 0 (.v 8)],
      let s := tiling i 0 0
      (s.warp? w0).isSome ∧ ((wx s).tileOps.find? fun o => o.tile == 3).isSome ∧ ((wx s).tileOps.find? fun o => o.tile == 31).isNone ∧
        (∀ o ∈ (wx s).tileOps, (tileGot s w0 (wx s) o).1 = some [] ∧ State.queryOpen (wx s) o.id = false)) ∧
    (∀ n ∈ [256, 2049],
      let s := tiling (.mld .always 3 (.v 8)) 0 n
      ∀ o ∈ (wx s).tileOps, (tileGot s w0 (wx s) o).1.isSome = decide (n = 256)) := by decide +kernel

/-- A descriptor of a sketch region, its counters at 0x2000, and one per type with the smallest parameters but one. -/
def desc (ty params : Nat) : List Byte :=
  leBytes 4 (ty + 2 ^ 8) ++ leBytes 4 params ++ leBytes 8 1 ++ leBytes 8 0x2000 ++ List.replicate 40 0
def small : Nat → List Byte
  | 1 => desc 1 0x41
  | 2 => desc 2 0x101
  | 3 => desc 3 5
  | _ => desc 4 0x010103

/-- A package about to run a sketch instruction in one lane, on the region of a descriptor at 0x1000. -/
def sketching (i : Instr) (d : List Byte) : State :=
  poke (oneLane (running i [(8, same 0x1000), (6, same 5), (7, same 1)])) 0x1000 d

/-- The checks of the lanes of a sketch instruction. -/
def skChecks (s : State) (i : Instr) : List (Nat × LaneRes) :=
  match skForm (wx s) i with
  | none => []
  | some f => ((disp s i).laneChecks (act s i) fun k t => t.skLane w0 k (f.handle k) f.act (f.key k) (f.wt k) f.weighted).1

/-- SketchesIssue: each instruction on a region that supports it; and each check of a lane failing. -/
theorem witness_sketches :
    (∀ p ∈ [(Instr.skins .always (.v 5) (.v 8) (.v 6) (.v 7) true, 1), (.skdel .always (.v 5) (.v 8) (.v 6) .z false, 1),
        (.skqry .always (.v 5) (.v 8) (.v 6) (.v 7), 1), (.skcard .always (.v 4) (.v 8) (.v 7), 3),
        (.skrank .always (.v 4) (.v 8) (.v 6) (.v 7), 4), (.skqtl .always (.v 5) (.v 8) (.v 6) (.v 7), 4), (.skstat .always (.v 4) (.v 8) 6, 2)],
      let s := sketching p.1 (small p.2)
      Old s p.1 ∧ FreshB (wx s) ∧ (skForm (wx s) p.1).isSome ∧ allPass (skChecks s p.1) = true) ∧
    (let i := Instr.skcard .always (.v 4) (.v 8) (.v 7)
     ∀ p ∈ [(small 1, 0x20), (desc 5 0, 0x21), (desc 3 3, 0x21), (small 3, 0)],
       let s := sketching i p.1
     Old s i ∧ FreshB (wx s) ∧ firstFail (skChecks s i) = (if p.2 = 0 then none else some (0, p.2, 0x1000))) ∧
    (let i := Instr.skdel .always (.v 5) (.v 8) (.v 6) .z false
     let s := (sketching i (small 1)).modGrid 0 fun g => { g with record := g.record.set 2 1 }
     Old s i ∧ doneLanes (skChecks s i) = 0 ∧ firstFail (skChecks s i) = some (0, 0x50, 0x1000)) ∧
    (let i := Instr.skstat .always (.v 4) (.v 6) 6
     firstFail (skChecks (sketching i (small 1)) i) = some (0, 0x13, 0x100000005)) ∧
    (let i := Instr.skstat .always (.v 4) (.v 8) 6
     firstFail (skChecks (leafed (sketching i (small 1)) (5 * 2 ^ 51 + 0x1000107)) i) = some (0, 0x21, 0x1000)) ∧
    Old (running (.skhash .always (.v 4) (.v 8) (.v 6) 16) []) (.skhash .always (.v 4) (.v 8) (.v 6) 16) := by decide +kernel

/-- What the checks of a handle give. -/
def handle (s : State) (h : Nat) : Option (Nat × Nat × Nat) :=
  match (s.handleCheck w0 h).1 with
  | .inr p => some p
  | .inl _ => none

/-- A package about to change the region at 0x1000, another at 0x1040. -/
def changing (i : Instr) (d : List Byte) : State :=
  onWarp (poke (sketching i d) 0x1040 (small 1)) fun x => { x with regs := [(6, same 0x1040), (8, same 0x1000)] }

/-- RegionChanges: each instruction, its handle good. -/
theorem witness_region_changes :
    ∀ i ∈ [Instr.skfold .always .c (.v 8), .skclr .always .t (.v 8), .skmrg .always (.v 8) (.v 6) none, .skmrg .always (.v 8) (.v 6) (some .s),
        .skinv .always (.v 8)],
      Old (changing i (small 1)) i ∧ FreshB (wx (changing i (small 1))) ∧
        handle (disp (changing i (small 1)) i) 0x1000 = some (0x81000, 0, 0) := by decide +kernel

/-- RegionChanges: a region that may be changed, one at the limit of a fold, a bad one, and one that cannot be merged with it. -/
theorem witness_region_kinds :
    (let s := changing (.skmrg .always (.v 8) (.v 6) none) (small 1)
     s.regionBusy 0x81000 = false ∧ s.keyWaits 0 = false ∧ (s.descRead 0 0x81000 0 0).1 = small 1 ∧
      (∀ p ∈ [(State.leafChanges, true), (State.leafCounts, false), (State.leafSource, false)],
        (match s.arrayCheck w0 (small 1) p.1 p.2 with
          | (.ok _, false, _) => true
          | _ => false) = true) ∧
      (match (mergeDesc s w0 (entryAt (wx s) (cx s) (.skmrg .always (.v 8) (.v 6) none)) 1 0x1040).1 with
        | .inr (l, .mem pb _ _) => l == small 1 && !s.regionBusy pb
        | _ => false) = true) ∧
    descOk (small 1) = true ∧ foldLimit (small 1) = false ∧ descOk (desc 1 0x21) = true ∧ foldLimit (desc 1 0x21) = true ∧
    descOk (desc 9 0) = false ∧ mergeable (small 1) (small 1) = true ∧ mergeable (small 1) (desc 1 0x21) = false ∧
    (let i := Instr.skfold .always .c (.v 8)
     handle (disp (leafed (sketching i (small 1)) (5 * 2 ^ 51 + 0x1000107)) i) 0x1000 = none) ∧
    (let i := Instr.skinv .always (.v 8)
     ∀ e ∈ [0x1000007, 0, 5 * 2 ^ 51 + 0x1000107],
       (match ((disp (leafed (sketching i (small 1)) e) i).translate 0 1 0x1000).1 with
        | .leaf t => State.locOf t 0x1000 == (if e = 0x1000007 then .mem 0x81000 0 0 else .remote 5 0x81000 0)
        | _ => e == 0) = true) := by decide +kernel

/-- A warp with a sketch operation in lane 0, so many steps done, on the region of a descriptor at 0x1000. -/
def sketched (i : Instr) (act : SkDo) (d : List Byte) (done : Nat) (busy retired : Bool) (units total : Nat) : State :=
  onWarp (poke (poke (running (.nop .always) []) 0x1000 d) 0x1040 d) fun x => { x with
    seq := 1
    skOps := [{ id := 0, pc := 0, word := 0, mask := 1, instr := i, dsts := [], vals := [], stDst := [], stVal := [], retired := retired,
                units := units, total := total, busy := busy, paused := [],
                lanes := [lanePassed 0 0x1000 0x81000 0 0 d act 5 1 (if State.wholeOp i then 0 else skSteps d act 5) []].map (fun l =>
                    { l with done := done }) ++
                  if total = 0 then [] else [lanePassed 0 0x1040 0x81040 0 0 d .card 0 0 0 []] }] }

/-- The sketch operation of a small state, and its lane. -/
def op0 (s : State) : SkOp := ((wx s).skOps.find? fun o => o.id == 0).getD
  { id := 1, pc := 0, word := 0, mask := 0, instr := .nop .always, lanes := [], dsts := [], vals := [], stDst := [], stVal := [],
    retired := false, units := 0, total := 0, busy := false, paused := [] }
def lane0 (s : State) : SkLane := ((op0 s).lanes.find? fun l => l.lane == 0).getD (lanePassed 1 0 0 0 0 [] .ins 0 0 0 [])

/-- SketchEvents: an operation of each kind at its first step and its last, retired and not. -/
theorem witness_sketch_events :
    ∀ p ∈ [(Instr.skins .always (.v 5) (.v 8) (.v 6) .z false, SkDo.ins), (.skdel .always (.v 5) (.v 8) (.v 6) .z false, .del),
        (.skqry .always (.v 5) (.v 8) (.v 6) .z, .qry)],
      ∀ done ∈ [0, 1], ∀ ret ∈ [true, false],
      let s := sketched p.1 p.2 (small 1) done false ret 0 0
      (s.warp? w0).isSome ∧ (op0 s).id = 0 ∧ (lane0 s).lane = 0 ∧ State.wholeOp (op0 s).instr = false ∧ (op0 s).retired = ret ∧
        (if p.2 = .qry then State.skDone (op0 s) = decide (done = 1)
         else s.skHeld 0 (wx s) (op0 s) (lane0 s) = !ret ∧ (lane0 s).done < (lane0 s).steps ∧
           ((lane0 s).done + 1 = (lane0 s).steps ↔ done = 1)) := by decide +kernel

/-- SketchEvents: a counter below its maximum and at it, N of an empty region, a report due and one not. -/
theorem witness_sketch_counts :
    (∀ c ∈ [0, 15], c ≤ 15 ∧ (c < 15 ↔ c = 0)) ∧
    (((ready (word 0 63 0 1023 1023 1023 1023 0) []).descNat (.mem 0x81000 0 0) 0x18 8).1 = 0) ∧
    (let s := onWarp (ready (word 0 63 0 1023 1023 1023 1023 0) []) fun x => { x with lawDue := [(3, 4)] }
     (s.warp? w0).isSome ∧ (3, 4) ∈ (wx s).lawDue ∧ (4, 3) ∉ (wx s).lawDue) := by decide +kernel

/-- RegionEvents: a unit of a merge in place, the last one, and one that waits. -/
theorem witness_merge_units :
    ∀ u ∈ [0, 1], ∀ ret ∈ [true, false],
      let s := sketched (.skmrg .always (.v 8) (.v 6) none) .card (small 1) 0 false ret u 2
      let p := s.mergePlace w0 (op0 s) 0x2000 false
      (s.warp? w0).isSome ∧ (op0 s).id = 0 ∧ (op0 s).lanes.length = 2 ∧ State.mergeShared (op0 s).instr = false ∧
        (op0 s).retired = ret ∧ (op0 s).paused = [] ∧ (wx s).window = [] ∧ (wx s).loads = [] ∧ (wx s).skOps.length = 1 ∧
        (op0 s).units < (op0 s).total ∧ ((op0 s).units + 1 < (op0 s).total ↔ u = 0) ∧
        (s.mergeSource w0 (wx s) (op0 s) (.mem 0x81040 0 0) 0 (if u = 0 then 0x2000 else 0x1040) 64).1.isSome ∧
        p.1 = some (.mem 0x82000 0 0) ∧ p.2.homeHeld 0x82000 0 = false ∧ s.homeHeld 0x81000 0 = false ∧ s.syncHeld 0 0x81000 0 = false ∧
        p.2.mergeWaits w0 (wx s) (op0 s) (.mem 0x81000 0 0) (.mem 0x82000 0 0, 64) = false := by decide +kernel

/-- RegionEvents: a change that may be published, with a twin and without, and one that waits. -/
theorem witness_region_publish :
    ∀ busy ∈ [true, false], ∀ twins ∈ [[], [9]],
      let s := (sketched (.skclr .always .c (.v 8)) .card (small 1) 0 busy true 0 0).modPart 0 fun p => { p with twins := twins }
      let r := s.arrayLeaves w0 (small 1)
      let q := r.2.openLeaves 0 (State.leavesOf r.1)
      (s.warp? w0).isSome ∧ (op0 s).id = 0 ∧ State.changeScope (op0 s).instr = some .c ∧ (op0 s).busy = busy ∧
        s.regionQuiet w0 0 (.mem 0x81000 0 0) = true ∧ s.olderDone w0 (wx s) 0 .c = true ∧ s.homeHeld 0x81000 0 = false ∧
        q.1 = decide (twins = [9]) ∧ (State.leavesOf (q.2.arrayLeaves w0 (small 1)).1).all (fun e =>
          !(q.2.arrayLeaves w0 (small 1)).2.publishHeld 0 e) = true := by decide +kernel
/-- A warp between two clauses, with this frontier and the header at virtual address 0. -/
def standing (hdr : Nat) (fr : List FEntry) : State :=
  onWarp (poke (running (.nop .always) []) 0 (leBytes 8 hdr)) fun x => { x with cursor := none, port := none, fr := fr }

def at0 : FEntry := { addr := 0, mask := 7, prio := 0, passes := 0, rejoin := false }

/-- What the selection of a warp comes to, as a number. -/
def selKind (r : Option Sel × State) : Nat :=
  match r.1 with
  | some (.clause _) => 1
  | some .safe => 2
  | some (.trap _ _) => 3
  | some (.park _ _) => 4
  | some .wait => 5
  | none => 0

/-- ClauseDispatch: frontiers with an entry passed over 63 and 64 times, and one that waits to rejoin; two warps to choose from. -/
theorem witness_selection :
    (∀ n ∈ [63, 64], let fr := [{ at0 with addr := 64, passes := n }, { at0 with prio := 3, rejoin := true }, { at0 with addr := 32 }]
      selectEntry fr = some (if n = 64 then { at0 with addr := 64, passes := 64 } else { at0 with prio := 3, rejoin := true })) ∧
    (let fr := [{ at0 with addr := 64, prio := 9, rejoin := true }, at0]
     fr.filter (fun d => !(d.rejoin && fr.any fun q => decide (q.addr < d.addr) && !q.rejoin)) = [at0] ∧ selectEntry fr = some at0) ∧
    (let s := standing 0xB00000FFFFFFFC10 [at0]
     let l := [(w0, wx s), ((⟨0, 1⟩ : WarpId), { wx s with slot := 1, fair := 64 })]
     (s.winner l).map (fun e => e.2.slot) = some 1 ∧ s.wins (w0, wx s) (⟨0, 1⟩, { wx s with slot := 1, fair := 64 }) = false) := by
  decide +kernel

/-- ClauseDispatch: a header whose wait field a counter exceeds, and one it meets; a core with no ready warp, with every port
taken, and with a warp whose selection is a clause, a safe point and a fault. -/
theorem witness_clause_dispatch :
    (∀ h ∈ [0xB00000FFFFFF0010, 0xB00000FFFFFF0410], let s := onWarp (standing h [at0]) fun x => { x with ctr := { x.ctr with ld := 1 } }
      (wx s).cursor = none ∧ selectEntry (wx s).fr = some at0 ∧ (s.fetchAt w0 0).1 = .word (BitVec.ofNat 64 h) ∧
        hdrWait (BitVec.ofNat 64 h) .ld ≠ 63 ∧ decide (hdrWait (BitVec.ofNat 64 h) .ld < (wx s).ctr.get .ld) = (h == 0xB00000FFFFFF0010)) ∧
    (let s := standing 0xB00000FFFFFFFC10 []
     amSorted s.warps = true ∧ (readyOn s 0).length = 0) ∧
    (let s := { standing 0xB00000FFFFFFFC10 [] with warps := (List.range 4).map fun k => (k, { wx (standing 0xB00000FFFFFFFC10 []) with port := some k }) }
     amSorted s.warps = true ∧ (List.range 4).all fun p => (s.warpsOn 0).any fun e => e.2.port == some p) ∧
    ∀ p ∈ [(0xB00000FFFFFFFC10, 1), (0xB20000FFFFFFFC10, 2), (0xC00000FFFFFFFC10, 3)],
      let s := onCtx (standing p.1 [at0]) fun c => { c with preq := true }
      amSorted s.warps = true ∧ (s.warpsOn 0).all (fun e => e.2.port != some 0) = true ∧ s.winner (readyOn s 0) = some (w0, wx s) ∧
        selKind (s.readySel w0 (wx s)) = p.2 := by decide +kernel

/-- A warp whose window holds these instructions with their results, numbered from 0. -/
def windowed (l : List (Instr × WResult)) (pend : AMap Nat) : State :=
  onWarp (running (.nop .always) []) fun x => { x with
    seq := l.length
    pend := pend
    window := l.mapIdx fun k e => { seq := k, instr := e.1, pc := 8, word := 0, mask := allLanes, frontier := [],
                                    cursor := cx (running (.nop .always) []), result := e.2 } }

/-- The entry of a small state of a number. -/
def entry (s : State) (k : Nat) : WEntry := ((wx s).window.find? fun e => e.seq == k).getD
  { seq := 99, instr := .nop .always, pc := 0, word := 0, mask := 0, frontier := [], cursor := cx s, result := .none }

/-- WindowEvents: an entry with a result, one of no early kind, one whose operand is missing, one that writes handler state, a load
behind an acquire; and one behind an older result that gives its operand, in some lanes and in all. -/
theorem witness_early_completion :
    (let s := windowed [(.ldacq .always .gl .b32 .p (.v 2) (.v 6) 0, .none), (.ld .always .gl .b32 (.v 12) (.v 22) 0, .none)] []
     passes (entry s 1).instr = true ∧ holdsLoads (entry s 0).instr = true ∧ (entry s 0).seq < 1) ∧
    runNames (writeRuns (State.reset.slots w0) (.iadd .always (.h 1) (.v 3) (.reg (.v 3)) .wrap)) = [961] ∧
    (allLanes &&& 1 ≠ 0 ∧ allLanes &&& allLanes ≠ 0 ∧
      let i := Instr.iadd .always (.v 1) (.v 2) (.reg (.v 3)) .wrap
      let s := windowed [(.iadd .always (.v 2) (.v 3) (.reg (.v 3)) .wrap, .alu [(2, same 9)] []), (i, .none)] []
      s.regReady w0 (wx s) ((wx s).window.filter fun f => decide (f.seq < 1)) 1 = true) ∧
    (∀ e ∈ [(Instr.iadd .always (.v 1) (.v 2) (.reg (.v 3)) .wrap, WResult.alu [] []), (.fence .always .p, .none),
        (.iadd .always (.v 1) (.v 4) (.reg (.v 3)) .wrap, .none)],
      let s := windowed [(.iadd .always (.v 2) (.v 3) (.reg (.v 3)) .wrap, .alu [(2, same 9)] []), e] [(4, 0)]
      (s.warp? w0).isSome ∧ (entry s 1).seq = 1 ∧
        ((entry s 1).result ≠ .none ∨ earlyKind (entry s 1).instr = false ∨
          s.opsReady w0 (wx s) ((wx s).window.filter fun f => decide (f.seq < 1)) (entry s 1).instr (entry s 1).mask = false)) ∧
    (let i := Instr.iadd .always (.v 1) (.v 2) (.reg (.v 3)) .wrap
     let s := windowed [(.iadd .always (.v 2) (.v 3) (.reg (.v 3)) .wrap, .alu [(2, same 9)] []), (i, .none)] []
     let older := (wx s).window.filter fun f => decide (f.seq < 1)
     let v := State.viewOf (wx s) older
     let r := readB (s.setWarp w0 { v with window := [] }) w0 { v with window := [] } i
     (s.warp? w0).isSome ∧ (entry s 1).seq = 1 ∧ (entry s 1).result = .none ∧ s.opsReady w0 (wx s) older i allLanes = true ∧
       allLanes &&& v.guardMask (guardOf i) ≠ 0 ∧ (encode i).isSome ∧ (runNames (writeRuns (s.slots w0) i)).all (fun n => decide (n < 960)) ∧
       r.1.isSome ∧ (r.1.toList.all fun B => (integerOuts v allLanes B i).isSome) = true ∧ (v.rd (.v 2) 0) = 9 ∧
       s.slots w0 0 = r.2.slots w0 0 ∧ (wx s).loads = [] ∧ (wx s).skOps = []) := by decide +kernel

/-- WindowEvents: an empty window; an oldest entry with results, with a load bound and unbound, with an operand missing, and ready. -/
theorem witness_retirement :
    ((windowed [] []).warp? w0).isSome ∧ (wx (windowed [] [])).window = [] ∧
    (∀ r ∈ [WResult.alu [(2, same 9)] [(1, 5)], .none], ∀ pend ∈ [[], [(3, 0)]],
      let i := Instr.iadd .always (.v 2) (.v 3) (.reg (.v 3)) .wrap
      let s := windowed [(i, r)] pend
      (s.warp? w0).isSome ∧ (wx s).window.length = 1 ∧ (wx s).cursor.isSome ∧ (headBody i).isSome ∧
        s.opsReady w0 (wx s) [] i allLanes = decide (pend = [])) ∧
    (∀ b ∈ [1, 0],
      let i := Instr.ld .always .gl .b32 (.v 12) (.v 22) 0
      let s := onWarp (windowed [(i, .load)] []) fun x => { x with
        loads := [{ id := 0, dsts := [12], vals := [same 3], accs := [], need := 1, bound := BitVec.ofNat 32 b, retired := false, acq := none, sig := 0 }] }
      (s.warp? w0).isSome ∧ (entry s 0).result = .load ∧ countersOf i = [.ld] ∧ (wx s).skOps = [] ∧
        ((wx s).loads.find? fun o => o.id == 0).any (fun o => State.loadBound o == (b == 1)) = true) := by decide +kernel

/-- A load and a store of one lane at a place. -/
def access (i : Nat) (loc : Loc) : Acc := { lane := i, ea := 0, loc := loc, len := 4 }
def loading (id : Nat) (acc : Acc) (need bound : Mask) (ret : Bool) (acq : Option Scope) : LoadOp :=
  { id := id, dsts := [12], vals := [same 3], accs := [acc], need := need, bound := bound, retired := ret, acq := acq, sig := 0 }
def storing (id : Nat) (kind : StKind) (acc : Acc) (todo : Mask) : StoreOp :=
  { id := id, kind := kind, rel := none, acq := none, todo := todo, acks := 0, released := false, sig := 0, lost := [],
    accs := [{ acc := acc, bytes := [(0, 7)], opnd := 2, cmp := 0 }] }
def holding (loads : List LoadOp) (stores : List StoreOp) : State :=
  onWarp (running (.nop .always) []) fun x => { x with seq := 5, loads := loads, stores := stores }

/-- LoadAndStoreEvents: a lane of a load that may bind, its last and not, retired and not; and one that an older open load holds. -/
theorem witness_load_bind :
    (∀ need ∈ [1, 3], ∀ ret ∈ [true, false],
      let s := holding [loading 2 (access 0 (.mem 0x80040 0 0)) (BitVec.ofNat 32 need) 0 ret none] []
      (s.warp? w0).isSome ∧ ((wx s).loads.find? fun k => k.id == 2).any (fun l =>
        l.acq == none && l.need.getLsbD 0 && !l.bound.getLsbD 0 && l.accs.filter (fun a => a.lane == 0) == [access 0 (.mem 0x80040 0 0)] &&
          l.retired == ret && ((boundLane l 0 [1, 2, 3, 4]).bound == l.need) == (need == 1)) = true ∧
        s.skWriting 0 (wx s) 2 (access 0 (.mem 0x80040 0 0)) = false ∧ s.fillHeld 0 0x80040 0 4 = false ∧ (s.l1Read 0 0x80040 0 0 4).1 = [0, 0, 0, 0]) ∧
    (∃ e ∈ (wx (windowed [(.ld .always .gl .b32 (.v 12) (.v 22) 0, .load)] [])).window, e.seq = 0 ∧ e.result = .load) ∧
    (∀ acq ∈ [none, some Scope.p],
      let s := holding [loading 1 (access 0 (.mem 0x80040 0 0)) 1 0 true acq, loading 2 (access 0 (.mem 0x80040 0 0)) 1 0 true none] []
      (wx s).loads.all (fun l => !State.loadBound l) = true ∧
        s.overlap 0 (access 0 (.mem 0x80040 0 0)) (access 0 (.mem 0x80040 0 0)) = true) := by
  decide +kernel

theorem witness_clear_before : ClearBefore (wx (holding [loading 2 (access 0 (.mem 0x80040 0 0)) 1 0 true none]
    [storing 3 .plain (access 0 (.mem 0x80040 0 0)) 1])) 2 :=
  ⟨by decide +kernel, by decide +kernel⟩

theorem witness_store_room : ∀ k ∈ [StKind.plain, .ordered, .red .add, .atom .exch],
    let a := access 0 (.mem 0x80040 0 0)
    let s := holding [] [storing 2 k a 1]
    (s.l1Room 0 (lineName s.fab.fid 0x80040) 0).isSome ∧ s.skWriting 0 (wx s) 2 a = false := by decide +kernel

/-- LoadAndStoreEvents: a store of each kind that may perform; one still in the window; the answer to one with a lane left, with
a request out, and with nothing left. -/
theorem witness_store_perform :
    (∀ k ∈ [StKind.plain, .ordered, .red .add, .atom .exch],
      let a := access 0 (.mem 0x80040 0 0)
      let s := holding (if k = .atom .exch then [loading 2 a 1 0 false none] else []) [storing 2 k a 1]
      (s.warp? w0).isSome ∧ (wx s).window = [] ∧ (wx s).tileOps = [] ∧ State.queryOpen (wx s) 2 = false ∧ s.homeHeld 0x80040 0 = false ∧
        (s.coreHomeRead 0 0x80040 0 0 4).1.length = 4 ∧
        (wx s).stores.all (fun o => o.id == 2 && o.rel == none && o.acq == none && o.todo.getLsbD 0) = true ∧
        (wx s).loads.all (fun l => l.id == 2 && (l.bound ||| laneBit 0 != l.need || !l.retired)) = true) ∧
    (let s := onWarp (windowed [(.st .always .gl .b32 false (.v 12) (.v 22) 0, .none)] []) fun x =>
       { x with stores := [storing 0 .plain (access 0 (.mem 0x80040 0 0)) 1] }
     ∃ e ∈ (wx s).window, ∃ o ∈ (wx s).stores, e.seq = o.id ∧ o.todo.getLsbD 0 = true) ∧
    ∀ todo ∈ [0, 1], let s := holding [] [storing 2 .plain (access 0 (.mem 0x80040 0 0)) (BitVec.ofNat 32 todo)]
      (s.warp? w0).isSome ∧ ((wx s).stores.find? fun k => k.id == 2).any (fun o => (o.todo == 0) == (todo == 0)) = true ∧
        s.fab.reqs = [] ∧ (wx s).skOps = [] ∧ (wx s).window = [] := by decide +kernel
/-- A line dirty in two sectors. -/
def dirtyLine : L1Line :=
  { line := 0x1000, key := 0, cls := 0, bytes := [(0, 1), (32, 2), (33, 3)], dirty := [0, 32], since := [(0, 0), (1, 0)] }
/-- A package with a line in an L1, one fill on its way to the line's home and one elsewhere, and one miss queued. -/
def caching : State :=
  ((running (.nop .always) []).modCore 0 fun c => { c with l1 := [dirtyLine] }).modMem fun m => { m with
    fills := [{ slice := m.l2Home 0x80000, line := 0x1000, key := 0, cls := 0 },
      { slice := m.l2Home 0x80000 + 1, line := 0x1000, key := 0, cls := 0 }]
    misses := [(0, [{ team := 0, page := 0, core := 0, warp := 0 }])] }

/-- The page of an armed snapshot set. -/
def snapPage : SnPage :=
  { k := 0, eaddr := 0x30000, frame := 2, key := 0, early := false, ahead := false, twin := none, order := 0, drained := false,
    acks := 0, resends := 0, copy := [], lost := false }

/-- A partition whose engine holds this page. -/
def snapping (st : Nat) (fail : Bool) (l : List SnPage) : State :=
  (running (.nop .always) []).modPart 0 fun p => { p with twins := [9], snap := { p.snap with state := st, fail := fail, pages := l, total := l.length } }

/-- CacheEvents: a line absent, a clean sector and two dirty ones; a signature store too young to clear and old enough. -/
theorem witness_cache_lines :
    caching.l1Find 0 0x1000 5 = none ∧
    (caching.l1Find 0 0x1000 0).any (fun e => e.dirty.all (fun o => o / 32 != 2) && e.dirty.any (fun o => o / 32 == 1) &&
      !caching.writeHeld (e.line % 2 ^ 33 * 128) && e.bytes.filter (fun q => q.1 == 32) == [(32, 2)]) = true ∧
    (∀ n ∈ [2 ^ 21 - 1, 2 ^ 21], decide (({ State.reset with clock := n }).clock < (amGet SigStore.empty State.reset.mem.l2sig 3).lastEvict + 2 ^ 21) =
      (n == 2 ^ 21 - 1)) := by decide +kernel

theorem witness_cache_homes : hasHome (0x1000 % 2 ^ 33 * 128) = true ∧ caching.strandsOf 0x1000 0 = [] ∧ caching.mem.l2 = [] ∧
    caching.mem.hbm.wf = true ∧ amSorted caching.mem.stamps = true ∧ dirtyLine.bytes ≠ [] ∧
    (∀ lost ∈ [true, false], let s := caching.modMem fun m => { m with fills := m.fills.map fun f => { f with lost := lost } }
      (s.mem.fills[0]?.any fun f => decide (s.mem.l2Home (f.line * 128) = f.slice ∧ f.lost = false)) = !lost) := by decide +kernel

/-- CacheEvents: an empty queue of misses; a miss of a team placed, with a frame to be had and with none, and of one gone; a fill at
its home, away from it, and none; a page that may take a twin, one that may not, and no twin left. -/
theorem witness_misses_and_fills :
    amGet [] caching.mem.misses 1 = [] ∧ (amGet [] caching.mem.misses 0).length = 1 ∧
    (∀ st ∈ [TStatus.placed, .exited], (onTeam caching fun t => { t with status := st }).team? 0 = some
      { (caching.team? 0).getD (Team.start 0 0 0 0 1 0 32 (Grid.start 1 0 0 0 1 0 none 0 [])) with status := st }) ∧
    ((caching.porterServe 0 0 0).1.isSome = true ∧
      (let r := (caching.modCore 0 fun c => { c with
        frames := (List.range Config.frames).map fun k => (k, { team := 7, page := k, last := 0 })
        scoreboard := [{ team := 7, sp := .sc, lo := 0, hi := 2 ^ 30, warp := 0, id := 0 }] }).porterServe 0 0 0
       r.1.isNone && !r.2 = true)) ∧
    caching.mem.fills[2]? = none ∧ (caching.mem.fills[0]?.any fun f => caching.mem.l2Home (f.line * 128) == f.slice) = true ∧
    (caching.mem.fills[1]?.any fun f => caching.mem.l2Home (f.line * 128) != f.slice) = true ∧
    (∀ st ∈ [2, 1], let s := snapping st false [snapPage]
      (s.part 0).snap.pages.find? (fun g => g.k == 0) = some snapPage ∧ (s.part 0).snap.state = st ∧
        (s.part 0).twins.find? (fun f => !s.frameBusy f) = some 9) ∧
    ((snapping 2 false [snapPage]).modPart 0 fun p => { p with twins := [] }).frameBusy 9 = false := by decide +kernel

/-- A copy of 16 bytes within global memory, or of another kind. -/
def copying (kind : CopyKind) (ntf : Option Nat) (src dst : Nat) (st : CopyStage) : CopyOp :=
  { id := 2, pc := 8, word := 0, mask := 1, kind := kind, ds := .gl, ss := .gl, rows := [{ src := src, dst := dst, len := 16 }], ntf := ntf,
    fid := 0, stage := st, acks := 0, paused := [], lost := [] }
def engine (o : CopyOp) (leaf : Nat) : State := onWarp (leafed (running (.nop .always) []) leaf) fun x => { x with seq := 5, copies := [o] }

/-- Whether a range of an engine is to be had. -/
def rangeOk (r : Eng × State) : Bool :=
  match r.1 with
  | .ok _ => true
  | _ => false
/-- EngineEvents: a copy that waits, one whose source, or destination, is not to be had, and one that transfers; one landing of each
kind, and one that waits for its answers. -/
theorem witness_engine_events :
    (∀ st ∈ [CopyStage.issued, .moved], let s := engine (copying .copy none 0x40 0x80 st) 0x1000007
      (s.warp? w0).isSome ∧ ((wx s).copies.find? fun c => c.id == 2).any (fun o => (o.stage == .issued) == (st == .issued) && o.paused.isEmpty) = true ∧
        (wx s).window = [] ∧ (wx s).loads = []) ∧
    MayRead (wx (engine (copying .copy none 0x40 0x80 .issued) 0x1000007)) (copying .copy none 0x40 0x80 .issued) ∧
    (∀ p ∈ [(0x1000007, 16, 16), (0x1000005, 16, 0), (0, 0, 0)],
      let s := engine (copying .copy none 0x40 0x80 .issued) p.1
      let r := State.readPieces w0 (wx s) 2 .gl (State.cutsOf [(0x40, 16)]) [] s
      r.2.1.length = p.2.1 ∧ rangeOk (s.engRange w0 2 .gl 0x40 16 false none) = decide (p.2.1 = 16) ∧
        (State.writePieces w0 2 .gl (State.cutsOf [(0x80, 16)]) r.2.1 0 r.2.2).2.1 = p.2.2) ∧
    (∀ l ∈ [[], [storing 1 .plain (access 0 (.mem 0x80040 0 0)) 1]],
      let s := onWarp (engine (copying .copy none 0x40 0x80 .issued) 0x1000007) fun x => { x with stores := l }
      (match s.engRange w0 2 .gl 0x40 16 false none with
       | (.ok p, u) => p.any fun q => u.olderWrite (wx s) w0 2 q
       | _ => false) = decide (l ≠ [])) ∧
    ∀ k ∈ [CopyKind.copy, .get, .put, .mcast 1 2 3, .send 1 2 3], ∀ ntf ∈ [none, some 5], ∀ st ∈ [CopyStage.moved, .issued],
      let s := engine (copying k ntf 0x40 0x80 st) 0x1000007
      (s.warp? w0).isSome ∧ ((wx s).copies.find? fun c => c.id == 2) = some (copying k ntf 0x40 0x80 st) ∧ s.fab.armed = [] ∧ s.fab.reqs = [] := by
  refine ⟨by decide +kernel, ⟨by decide +kernel, by decide +kernel, by decide +kernel, by decide +kernel⟩, by decide +kernel,
    by decide +kernel, by decide +kernel⟩

/-- A package with a queue about to take a doorbell, all of its functions ready. -/
def queued (x : Queue) (rec : List Byte) : State :=
  (((poke (running (.nop .always) []) 0x1000 rec).setReady ⟨true, true, true, true, true, true⟩)).setQueue 3 x
def ring : Queue := { Queue.reset with base := 0x81000, en := true, ctx := 1 }
/-- A record as a queue holds it. -/
def devRec (rec : List Byte) (n : Nat) : DevRec :=
  { record := rec, arrival := n, recAddr := 0x81000, ctx := 1, depth := 0, parent := none, handle := 0, launcher := 0, launchKey := 0,
    isHost := true, prio7 := false, step := 0 }

/-- QueueEvents: a doorbell of a queue off and on, within its ring and beyond it, and before the HBM is ready; a record to copy out,
and none. -/
theorem witness_doorbells :
    (∀ en ∈ [true, false], ∀ n ∈ [16, 17], let s := queued { ring with en := en } (fetchRecord 0)
      (s.ready.compute && s.ready.hbm) = true ∧ ((s.queue 3).en && decide ((n + 2 ^ 32 - (s.queue 3).head) % 2 ^ 32 ≤ 2 ^ (s.queue 3).log2n)) =
        (en && n == 16) ∧ (s.queue 3).tail = (s.queue 3).head) ∧
    (let s := State.reset.setReady ⟨true, false, false, false, false, false⟩
     s.ready.compute = true ∧ s.ready.hbm = false) ∧
    (∀ l ∈ [[], [4]], ∀ v ∈ [true, false], let s := onCtx (queued { ring with hostArr := l } (fetchRecord 0)) fun c => { c with v := v }
      (s.queue 3).hostArr = l ∧ (s.ctx (s.queue 3).ctx).v = v ∧ (s.ctx (s.queue 3).ctx).part = (s.queue 3).part ∧ s.host.barPend = []) := by decide +kernel

/-- QueueEvents: no record, and the older of two, good and bad. -/
theorem witness_records : nextRecord ring = none ∧
    ∀ n ∈ [0, 1],
      let r := (fetchRecord 1).set 16 (BitVec.ofNat 8 n)
      let s := queued { ring with hostCopied := [devRec r 4], dev := [devRec (fetchRecord 1) 5] } r
      nextRecord (s.queue 3) = some (devRec r 4, false) ∧ bytesNat r 0x050 8 = 0 ∧ s.fab.inbox = [] ∧
        (gridOf (devRec r 4) 3 0).cben = false ∧ (recordSub (gridOf (devRec r 4) 3 0) (s.part 0).pchs).isSome = (n == 0) := by
  decide +kernel

theorem witness_quiet_rings : QuietRings (queued ring []) := ⟨by decide +kernel, by decide +kernel, by decide +kernel⟩

/-- A grid of one team that has yet to be placed. -/
def unplaced : State :=
  { (running (.nop .always) []).modGrid 0 fun g => { g with started := false, placed := 0 } with warps := [], teams := [] }

/-- GridEvents: a partition off, one with nothing pending, and one whose team fits. -/
theorem witness_placement :
    ((State.reset).part 0).en = false ∧ (running (.nop .always) []).pendingGrids 0 = [] ∧
    (let s := unplaced
     (s.part 0).en = true ∧ (s.pendingGrids 0).map (·.1) = [0] ∧ (s.pendingGrids 0).all (fun p =>
       (s.ctx p.2.ctx).v && !(s.ctx p.2.ctx).preq && !(s.ctx p.2.ctx).failed && decide (p.2.chsSize ≤ s.chipFree 0) &&
         (s.waiting 0 p.2).head? == some (0, none) && s.energyAdmits 0 p.2.eclass && decide (p.2.warps ≤ 64) &&
         (s.findCluster 0 ((List.range p.2.warps).map fun i => (i, some (p.2.granules (p.2.role i)), p.2.tileGrant i))).isSome) = true ∧
     amSorted s.warps = true ∧ amSorted s.teams = true) := by decide +kernel

/-- A team whose one warp has exited; its grid on this package alone, or one of two packages. -/
def leaving (alone : Bool) (launcher : Nat) (exited : Bool) : State :=
  ((onTeam (onWarp (running (.nop .always) []) fun x => { x with status := .exited, cursor := none, port := none }) fun t =>
    { t with status := if exited then .exited else .placed })).modGrid 0 fun g =>
      { g with nrank := if alone then 1 else 2, rank := if alone then 0 else 1, launcher := launcher, exitedTeams := if exited then 1 else 0
               record := if alone then g.record else g.record.take 0x50 ++ [1] ++ g.record.drop 0x51 }

/-- GridEvents: a team that may exit and one with a warp left; a grid done and not, of one package and of several, launched here and
elsewhere. -/
theorem witness_exits :
    (∀ p ∈ [(leaving true 0 false, true), (running (.nop .always) [], false)],
      (p.1.team? 0).any (fun t => t.status == .placed && t.halted == none && p.1.exitReady 0 == p.2) = true ∧
        (p.1.gridOf? 0).any (fun g => !g.2.cben && !(p.1.ctx g.2.ctx).heldResume) = true) ∧
    (∀ alone ∈ [true, false], ∀ f ∈ [0, 3], ∀ ex ∈ [true, false], let s := leaving alone f ex
      (s.grid? 0).any (fun g => !g.retired && s.shareDone 0 g == ex && !s.writesOpen 0 && g.pod s.fab.fid == !alone && !g.reported &&
        !g.reports.contains s.fab.fid && g.launcher == f && (decide (g.reports.length + 1 < g.nrank) == !alone)) = true) := by decide +kernel
/-- A package with links trained, these streams, flags, requests and grids of its own, and a packet to it. -/
def linked' (f : Fabric → Fabric) : State :=
  ((running (.nop .always) []).setReady ⟨true, true, true, true, true, true⟩).modFab fun q => f { q with linksUp := 3 }
def packet (kind : PktKind) : Packet := { (linked' id).packetTo kind 0 with ctx := 1, addr := 0x80040, len := 4, data := [(0, 7)] }

/-- PacketAcceptance: each row with a packet of its kind, current and stale; and links down. -/
theorem witness_packets :
    (∀ i ∈ [Instr.readRequest (packet .readReq), .write (packet .write), .atomicOrRed (packet .atomic), .readOrAtomicResponse (packet .response),
        .acknowledgement (packet .ack), .orderedFlagWrite (packet .orderedFlag), .streamClose (packet .streamClose), .message (packet .message),
        .multicastDelivery (packet .multicast), .collectiveChunk (packet .chunk), .negativeAcknowledgement (packet .nack),
        .remoteLaunchDelivery (packet .launch), .retirementReport (packet .report), .retirementIncrement (packet .increment)],
      (packetForm i).any (fun q => q.1.kind == q.2.1 && q.1.dfid == (linked' id).fab.fid && q.1.dinc == (linked' id).fab.inc &&
        q.1.sinc == amGet 0 (linked' id).fab.peers q.1.sfid) = true) ∧
    (PktKind.other 0x0C).reserved = true ∧ (PktKind.other 0).reserved = true ∧ PktKind.write.reserved = false ∧ PktKind.launch.reserved = false ∧
    (linked' id).fab.linksUp ≠ 0 ∧ (running (.nop .always) []).fab.linksUp = 0 ∧ (packet .write).dinc ≠ (linked' fun f => { f with inc := 5 }).fab.inc := by
  decide +kernel

/-- A stream known here, and a flag of it. -/
def stream (n : Nat) : DStream :=
  { sfid := 0, sinc := 0, score := 0, swarp := 0, serial := 7, count := n, entry := true, close := none, since := 0 }
def flag : Packet := { packet .orderedFlag with serial := 7, ofcnt := 1 }

/-- PacketEffects: nothing held, no stream known, a write of each kind; a redirection; a flag before and after its writes. -/
theorem witness_packet_writes :
    (linked' id).packetHeld (packet .write) = false ∧ (packet .write).stream = false ∧ (packet .write).tag % 2 = 0 ∧
    (packet .atomic).more = false ∧ (linked' id).fab.atomLanes = [] ∧
    State.sameTrain { packet .atomic with train := 7 } { packet .atomic with train := 7, more := true } = true ∧
    ((linked' id).modMem fun m => m).packetHeld (packet .readReq) = false ∧
    { packet .atomic with tag := 4, atom := some .add }.tag = 4 ∧ ((linked' id).homeNat ((linked' id).redirected 0x80040) 0 0 4).1 = 0 ∧
    ((linked' id).homeRead ((linked' id).redirected 0x80040) 0 0 4).1.length = 4 ∧
    ((linked' id).modMem fun m => { m with redirs := [(1, 3, 0)] }).redirected 0x80040 = 0x180040 ∧
    ∀ n ∈ [0, 1], let s := linked' fun f => { f with streams := [stream n] }
      s.fab.streams = [stream n] ∧ s.fab.flags = [] ∧ State.streamIs flag (stream n) = true ∧ (stream n).entry = true ∧ (stream n).close = none ∧
        decide ((stream n).count < flag.ofcnt) = (n == 0) ∧ s.packetHeld flag = false := by decide +kernel

theorem witness_no_streams : NoStreams (linked' id) := ⟨rfl, rfl⟩

/-- A request of a warp. -/
def request (owner : ReqOwner) (kind : PktKind) : Req :=
  { id := 4, owner := owner, kind := kind, fid := 0, link := 0, core := 0, slot := 0, serial := 1, pin := none, sent := 0, out := true, va := 0, lanes := [(0, 0)],
    reads := [], fwd := [none] }

/-- PacketEffects: an answer to no request, one from another package, and one to a request of each owner. -/
theorem witness_answers :
    (∀ r ∈ (linked' id).fab.reqs, r.id ≠ (packet .ack).req) ∧
    (∀ o ∈ [ReqOwner.copy w0 2, .store w0 2, .load w0 2], ∀ f ∈ [0, 3],
      let s := onWarp (linked' fun f => { f with reqs := [request o .write] }) fun x => { x with
        loads := [loading 2 (access 0 (.remote 0 0 0)) 1 0 true none] }
      let p := { packet .response with req := 4, sfid := f }
      (s.fab.reqs.find? fun r => r.id == p.req) = some (request o .write) ∧ decide ((request o .write).fid = p.sfid) = (f == 0) ∧
        ((answered s (request o .write)).warp? w0).any (fun x => (x.loads.find? fun l => l.id == 2).any fun l =>
          l.acq == none && l.accs.any fun a => a.lane == 0) = true ∧ (request o .write).fwd.length = p.data.length ∧ p.sig = 0 ∧
        { request o .write with pin := some 0x1000 }.pin = some 0x1000) := by decide +kernel

/-- PacketEffects: a message to no context, to one with no receive and with one; a delivery on a broken tree, to no buffer, past the
end of one, and within it; a chunk. -/
theorem witness_deliveries :
    (∀ v ∈ [true, false], ∀ l ∈ [[], [(0, slotPosted 0)]],
      let s := onTeam (onCtx (linked' id) fun c => { c with v := v }) fun t => { t with rslots := l }
      (packet .message).opnd2 = 0 ∧ (s.ctx (packet .message).ctx).v = v ∧ (s.matchOf (packet .message)).isSome = decide (l ≠ []) ∧
        s.fab.overflow.length < 256 ∧ s.ctxHeld 1 0x1000 1 = false) ∧
    (∀ b ∈ [true, false], ∀ l ∈ [[], [landing 0]],
      let s := linked' fun f => { f with landings := l, trees := [{ ident := 2, members := [0], broken := b, asg := 1, cmp := 0, zeroSteps := [] }] }
      (s.treeOf 2).any (fun t => t.broken == b) = true ∧
        s.fab.landings = l ∧ (landing 0).len < 256 + 1 ∧ s.ctxHeld 1 252 4 = false ∧ (landing 0).ctr = none) ∧
    (let p := { packet .multicast with opnd := 2, tag := 0, addr := 252, len := 4, train := 9, data := [(0, 1), (1, 2), (2, 3), (3, 4)] }
     mcastLands p (landing 0) ∧ ¬ mcastLands { p with addr := 253 } (landing 0) ∧ ¬ mcastLands p { landing 0 with closed := true } ∧
       State.partKnown (linked' id).fab.refusedMcast p = false ∧ p.len ≤ State.partsOf (landing 0).begun p.opnd p.sfid p.train + p.data.length ∧
       ¬ p.len ≤ State.partsOf (landing 0).begun p.opnd p.sfid p.train + 3) ∧
    (let s := (linked' id).modGrid 0 fun g => { g with
       record := g.record.take 0x70 ++ leBytes 4 64 ++ leBytes 2 2 ++ leBytes 2 5 ++ leBytes 2 0 ++ [1] ++ g.record.drop 0x7B }
     (s.chunkGrid 2 0).isSome ∧ (s.chunkGrid 2 0).any (fun g => !s.ctxHeld g.2.ctx (g.2.rbase + 3 * g.2.chunk) 64 && s.trigGet g.2.ctrg != 1 &&
       g.2.chunk == 64 && State.partsOf s.fab.chunkParts 2 0 3 == 0) = true) := by
  unfold mcastLands
  decide +kernel

/-- FabricTimersAndTrees: a request absent, queued, young and old, of each owner; a flag, a stream, at its time and before; a tree,
one broken and none; a request of each kind, and its answers. -/
theorem witness_fabric_timers :
    (∀ c ∈ [2 ^ 26 - 1, 2 ^ 26], ∀ o ∈ [ReqOwner.nobody, .store w0 2, .load w0 2],
      let s := { (onWarp (linked' fun f => { f with reqs := [request o .write] }) fun x => { x with
        loads := [loading 2 (access 0 (.remote 0 0 0)) 1 0 true none], stores := [openStore true, { openStore true with id := 2 }] }) with clock := c }
      (s.fab.reqs.find? fun r => r.id == 4) = some (request o .write) ∧ (s.fab.reqs.all fun r => r.id != 5 && r.out) = true ∧
        decide (s.clock < (request o .write).sent + 2 ^ s.host.ftmo) = (c == 2 ^ 26 - 1) ∧
        ((answered s (request o .write)).warp? w0).any (fun x => (x.loads.find? fun l => l.id == 2).isSome &&
          (x.stores.find? fun q => q.id == 2).any fun q => !q.lost.contains 0) = true) ∧
    (∀ c ∈ [2 ^ 26 - 1, 2 ^ 26], ∀ b ∈ [true, false],
      let s := { (linked' fun f => { f with flags := [{ pkt := flag, since := 0, waiting := b }], streams := [{ stream 0 with entry := b }] }) with clock := c }
      s.fab.flags[0]? = some { pkt := flag, since := 0, waiting := b } ∧ s.fab.streams[0]? = some { stream 0 with entry := b } ∧
        decide (s.clock < 0 + 2 ^ s.host.ftmo) = (c == 2 ^ 26 - 1) ∧ (stream 0).count < flag.ofcnt) := by decide +kernel

theorem witness_trees :
    (∀ b ∈ [true, false],
      let s := linked' fun f => { f with trees := [{ ident := 2, members := [0], broken := b, asg := 1, cmp := 0, zeroSteps := [] }] }
      (s.treeOf 2).any (fun t => t.broken == b) = true ∧ s.treeOf 3 = none) ∧
    (∀ op ∈ [1, 2], let v : DWord := BitVec.ofNat 64 (2 ^ 63 + op * 2 ^ 60 + 3 * 2 ^ 32 + 2)
      v.toNat / 2 ^ 60 % 4 = op ∧ v.getLsbD 63 = true ∧ (v &&& 0x7FFFFFFFFFFFFFFF).getLsbD 63 = false ∧
        (linked' id).host.trqBusy = false ∧ (linked' id).ready.fabric = true ∧
        ((linked' id).devRead (linked' id).host.trqlist (2 * (v.toNat / 2 ^ 32 % 2 ^ 16))).1.length = 6) ∧
    (∀ op ∈ [1, 2], ∀ l ∈ [[], [(0, [{ packet .chunk with opnd := 4 }])]],
      let s := (linked' fun f => { f with links := l }).setHost { (linked' id).host with trqBusy := true, trqReq := (op, 4), trqMembers := [0] }
      s.host.trqBusy = true ∧ decide (s.host.trqReq.1 = 1) = (op == 1) ∧ s.fab.fid ∈ s.host.trqMembers ∧ s.treeBusy 4 = decide (l ≠ [])) := by
  decide +kernel
/-- ContextEvents: a request of a context with and without one; a resumption with a team on its cluster and with none; a definition
in a partition on and off, of a context with a grid and without; a discard. -/
theorem witness_contexts :
    (∀ b ∈ [true, false],
      let s := onCtx (running (.nop .always) []) fun c => { c with preq := b }
      (s.ctx 1).preq = b ∧ amSorted s.teams = true ∧ (s.ctx 1).v = true ∧ (s.teamsOf 1).any (fun e => e.2.status.onCluster) = true) ∧
    (let s := { onCtx (running (.nop .always) []) (fun c => { c with preq := true }) with teams := [], warps := [], grids := [] }
     (s.ctx 1).preq = true ∧ (s.teamsOf 1).all (fun e => !e.2.status.onCluster) = true ∧ (s.ctx 1).v = true ∧ (s.ctx 2).v = false) ∧
    (∀ p ∈ [0, 1], let s := running (.nop .always) []
      let v : DWord := BitVec.ofNat 64 (2 ^ 63 + p)
      (s.part (v.toNat % 8)).en = (p == 0) ∧ v.getLsbD 63 = true ∧ v.getLsbD 61 = false ∧ (s.ctx 1).preq = false ∧ s.hasGrid 1 = true ∧
        s.hasGrid 2 = false) := by decide +kernel

/-- A warp parked on a page of its context, which the partition's register names. -/
def parked : State :=
  (onWarp (onCtx (running (.nop .always) []) fun c => { c with requests := [State.pageOf 0x1000] }) fun x =>
    { x with status := .parked, park := some { pages := [State.pageOf 0x1000], resume := 1, fetch := false } }).modPart 0 fun p => { p with psva := 0x1000 }

/-- ContextEvents: an answer of each kind to a page that a warp is parked on. -/
theorem witness_page_service :
    serviceForm (.pageServiceAnswer 0 1) = some (0, 1, false) ∧ serviceForm (.pageServiceRefuse 0 1) = some (0, 1, true) ∧
    (parked.warps.all fun e => e.2.copies.isEmpty && e.2.skOps.isEmpty) = true ∧ amSorted parked.warps = true ∧ amSorted parked.teams = true ∧
    (parked.warp? w0).isSome ∧ (parked.team? (wkey w0 / 64)).any (fun t => t.status == .placed) = true ∧ parked.ctxOf (wkey w0 / 64) = 1 ∧
    (wx parked).park.any (fun k => k.pages.contains (State.pageOf (parked.part 0).psva)) = true := by decide +kernel

/-- A team at this state, its one warp at that. -/
def teamAt (ts : TStatus) (ws : WStatus) (dl halted : Option Nat) : State :=
  onTeam (onWarp (running (.nop .always) []) fun x => { x with status := ws, port := none }) fun t =>
    { t with status := ts, deadline := dl, halted := halted }

/-- SaveAndHaltEvents: a deadline to come and one that has passed; a team that may save, with its warps drained, and one that may
not; a save that finds its area. -/
theorem witness_saves :
    (∀ d ∈ [some 0, some 1, none], let s := teamAt .yielding .running d none
      (s.team? 0).any (fun t => t.status == .yielding && t.deadline == d) = true ∧ (d.any fun n => decide (n ≤ s.clock)) = (d == some 0) ∧
        amSorted s.warps = true ∧ (s.warpsOf 0).all (fun e => e.2.window.isEmpty && e.2.handler.isNone) = true) ∧
    (let s := teamAt .yielding .exited (some 0) none
     (s.warpsOf 0).all (fun e => e.2.status == .exited) = true ∧ (s.team? 0).any (fun t => t.deadline == some 0) = true) ∧
    (∀ ws ∈ [WStatus.yielded, .running, .exited], let s := teamAt .yielding ws none none
      (s.team? 0).isSome ∧ (s.warpsOf 0).all (fun e => e.2.status == ws) = true ∧ (s.warpsOf 0).length = 1) ∧
    (∀ l ∈ [[], [openStore false]], let s := onWarp (teamAt .saving .yielded none none) fun x => { x with stores := l }
      (s.team? 0).any (fun t => t.status == .saving && t.halted == none && t.stt.all fun e => !e.2.res) = true ∧ amSorted s.warps = true ∧
        (s.warpsOf 0).all (fun e => e.2.openBatch.isEmpty && s.drained e.1 e.2 == decide (l = [])) = true) ∧
    wkey w0 / 64 = 0 := by decide +kernel

/-- A warp that waits for a handler bank. -/
def banking (started : Bool) (banks : List (Option WarpId)) : State :=
  (onWarp (handling (running (.nop .always) []) false) fun x =>
    { x with port := none, handler := x.handler.map fun h => { h with bank := none, started := started } }).modCore 0 fun c => { c with banks := banks }

/-- SaveAndHaltEvents: a warp that waits for a bank, new and resumed, with one free and none; a team to halt, its warp at rest; a
watchdog before its time and at it. -/
theorem witness_banks_and_halts :
    (∀ b ∈ [true, false], ∀ l ∈ [List.replicate 8 none, List.replicate 8 (some w0)], let s := banking b l
      (s.warpsOn 0).map (·.1) = [w0] ∧ State.waitsBank (wx s) = true ∧ (wx s).handler.any (fun h => h.started == b) = true ∧
        (s.core 0).banks.findIdx? Option.isNone = if l = List.replicate 8 none then some 0 else none) ∧
    (∀ h ∈ [some 0x60, none], let s := teamAt .placed .running none h
      (s.team? 0).any (fun t => t.halted == h && t.status.onCluster) = true ∧ amSorted s.warps = true ∧
        s.windowFull (wx s) = false ∧ (wx s).halt = none ∧
        (s.warpsOf 0).all (fun e => e.2.window.isEmpty && e.2.handler.isNone) = true) ∧
    (∀ n ∈ [2 ^ 32 - 1, 2 ^ 32], let s := { running (.nop .always) [] with clock := n }
      (s.warp? w0).isSome ∧ (s.team? 0).any (fun t => t.wdlog == 32 && t.status == .placed && decide (s.clock < (wx s).lastRetire + 2 ^ t.wdlog) == (n == 2 ^ 32 - 1)) = true ∧
        (wx s).status = .running ∧ (wx s).park = none ∧ (wx s).halt = none ∧ (wx s).cursor.isSome ∧ (wx s).window = []) := by decide +kernel

/-- SaveAndHaltEvents: no record, a record with room in the ring, and the ring full; an error of each fate. -/
theorem witness_event_ring :
    (∀ n ∈ [0, 15, 16],
      let s := onCtx (poke (running (.nop .always) []) 0x28 (leBytes 4 n)) fun c => { c with save := 0x80000, events := [TrapRec.zero] }
      let h := (s.devRead (s.ctx 1).save 64).1
      (s.ctx 1).events = [TrapRec.zero] ∧ 2 ^ max 4 (min 16 (bytesNat h 0x20 1 % 32)) = 2 ^ 4 ∧ bytesNat h 0x28 4 = n) ∧
    (∀ n ∈ [63, 64],
      let s := onCtx (poke (running (.nop .always) []) 0x28 (leBytes 4 n)) fun c =>
        { c with save := 0x80000, events := [TrapRec.zero], log2e := 6, evbase := 0x90000 }
      decide (2 ^ (s.ctx 1).log2e ≤ (bytesNat (s.devRead (s.ctx 1).save 64).1 0x28 4 + 2 ^ 32 -
        bytesNat (s.devRead (s.ctx 1).save 64).1 0x30 4) % 2 ^ 32) = (n == 64)) ∧
    (∀ n ∈ [15, 16],
      let s := onCtx (poke (poke (running (.nop .always) []) 0x20 (leBytes 8 4)) 0x28 (leBytes 4 n)) fun c => { c with save := 0x80000, events := [TrapRec.zero] }
      let h := (s.devRead (s.ctx 1).save 64).1
      decide (2 ^ max 4 (min 16 (bytesNat h 0x20 1 % 32)) ≤ (bytesNat h 0x28 4 + 2 ^ 32 - bytesNat h 0x30 4) % 2 ^ 32) = (n == 16)) ∧
    (State.reset.ctx 1).events = [] := by decide +kernel

/-- BringUp and HostRegisters: each function ready and not, links up and down; the window within a line, beyond the memory, and on
a line that is held; each register write. -/
theorem witness_host :
    (State.reset.fab.linksUp = 0 ∧ (linked' id).fab.linksUp ≠ 0 ∧ State.reset.ready.fabric = false ∧ State.reset.fab.joined = false ∧
      (linked' fun f => { f with joined := true }).fab.joined = true ∧ State.reset.ready.hbm = false) ∧
    (let s := linked' id
     s.ready.hbm = true ∧ (2 ^ 36 - 8) + 8 ≤ 2 ^ 36 ∧ (s.host.winbase + (2 ^ 36 - 8)) % 128 + 8 ≤ 128 ∧ s.host.barPend = [] ∧
      Config.stackCount ≤ (s.setHost { s.host with winbase := 15 * 2 ^ 36 }).host.winbase / 2 ^ 36) ∧
    (let s := linked' id
     s.ready.compute = true ∧ s.ready.hbm = true ∧ s.ready.energy = true ∧ s.ready.fabric = true ∧ s.ready.keys = true ∧
      s.apertureReady 0x28 = true ∧ State.reset.apertureReady 0x28 = false ∧ (s.part 0).en = true ∧ (s.part 1).en = false ∧
      keyForm s .keyLoad = some s.host.kdata ∧ keyForm s .keyZero = some 0 ∧ s.mem.cores.all (fun c => c.2.l1.all fun e => e.key != s.host.kidx) = true) ∧
    (∀ v ∈ [2 ^ 63, 5 * 2 ^ 16], (BitVec.ofNat 64 v).getLsbD 63 = (v == 2 ^ 63)) := by decide +kernel

theorem no_writes_held : ∀ k, (linked' id).homeHeld k 0 = false := fun _ => rfl

/-- BringUp and HostRegisters: a line that waits for its snapshot's twin, and a key with a dirty line there; a context not defined. -/
theorem witness_host_waits :
    (let s := (linked' id).modPart 0 fun p => { p with snap := { p.snap with state := 2, pages := [{ snapPage with frame := 0 }], total := 1 } }
     s.homeHeld 128 0 = true ∧ s.host.keyPend = none ∧ s.keyWaits s.host.winkey = false ∧
       (let t := s.modCore 0 fun c => { c with l1 := [{ dirtyLine with line := 1 }] }
        t.ready.keys = true ∧ t.keyHeld t.host.kidx = true ∧ ((t.installKey 5).keyWaits t.host.kidx = true))) ∧
    (linked' id).host.keyPend = none ∧ ((linked' id).ctx 2).v = false ∧
    (let offers := [200, 1]
     Config.linkProtocol ≤ offers.getD 0 1 ∧ offers.getD 1 1 = 1 ∧ offers.getD 2 1 = 1) := by decide +kernel

/-- A partition about to arm its engine on the set of one entry at 0x1000. -/
def arming (l : List Byte) : State :=
  (poke (linked' id) 0x1000 l).modPart 0 fun p => { p with snap := { p.snap with sncnt := 1, snset := 0x1000, ctx := 1 } }

/-- SnapshotEvents: SNCTL with and without ARM; a set that is read, its pages found and not; a tree at its step and before; a page to
cut, to drain, to abort, with a twin and without, and a failure to retry. -/
theorem witness_snapshots :
    (∀ v ∈ [0, 1], ∀ st ∈ [0, 1, 2], let s := snapping st false [snapPage]
      (s.part 0).snap.state = st ∧ (BitVec.ofNat 64 v).getLsbD 0 = (v == 1)) ∧
    (∀ va ∈ [0, 0x80000, 1],
      let l := leBytes 8 va ++ leBytes 8 1
      let s := arming l
      s.ready.fabric = true ∧
      (match (s.readCtx (2 ^ 36) 1 0x1000 16).1 with
       | .bytes q => q == l
       | _ => false) = true ∧ State.snapList l 1 = (if va = 1 then none else some [va]) ∧
      (match (s.snapPages 1 [va]).1 with
       | .ok q => va != 0x80000 && q.length == 1
       | .error k => va == 0x80000 && k == 0) = true) ∧
    (∀ c ∈ [0, 1], let s := (linked' fun f => { f with trees := [{ ident := 1, members := [0], broken := false, asg := 1, cmp := c, zeroSteps := [] }] }).modPart 0 fun p =>
        { p with snap := { p.snap with state := 1, tree := 1, snstep := 1, pages := [snapPage] } }
      s.treeCmp (s.part 0).snap.tree = some c ∧ (s.part 0).snap.pages = [snapPage] ∧ pteTwin (s.readPte snapPage.eaddr).1 = 0 ∧
        pteTwin ((leafed s 0x1000407).readPte snapPage.eaddr).1 = 1 ∧ s.treeCmp 9 = none) ∧
    (∀ f ∈ [true, false], ∀ tw ∈ [none, some 9], let s := snapping 2 f [{ snapPage with twin := tw }]
      State.nextPage (s.part 0).snap = some { snapPage with twin := tw } ∧ (s.part 0).snap.fail = f ∧ snapPage.drained = false ∧ snapPage.early = false ∧
        snapPage.lost = false ∧ (s.homeRead (tw.getD snapPage.frame * 2 ^ 19) 0 0 4).1.length = 4) := by decide +kernel

/-- MemoryStaysCanonical and WarpsStayFresh: reset, and a package that is running. -/
theorem witness_invariants :
    (∀ s ∈ [State.reset, ready (word 0x040 63 0 1 2 3 1023 0) []], s.mem.hbm.wf = true ∧ s.mem.frameMem.wf = true ∧ amSorted s.warps = true ∧
      amSorted s.teams = true) ∧
    (match step (ready (word 0x040 63 0 1 2 3 1023 0) []) with
     | .next _ => true
     | _ => false) = true := by decide +kernel

theorem witness_fresh : ∀ e ∈ (ready (word 0x040 63 0 1 2 3 1023 0) []).warps, Fresh e.2 := fun _ h =>
  fresh_sound ((by decide +kernel : ∀ e ∈ (ready (word 0x040 63 0 1 2 3 1023 0) []).warps, FreshB e.2) _ h)
/-! ### Well-formedness: for each check an instruction that fails it, beside one that passes -/

theorem test_ill_formed_control : ∀ p ∈ ([(Instr.nop (.pred 48 false), .nop (.pred 47 true)),
    (.tagq .always (.v 1) (.v 768), .tagq .always (.v 1) (.v 767)),
    (.tagq .always (.h 32) (.v 1), .tagq .always (.h 31) (.v 1)),
    (.brx .always (.v 3), .brx .always (.v 766)),
    (.brx .always (.v 768), .brx .always .z),
    (.brx .always (.h 31), .brx .always (.h 30)),
    (.call .always (.h 32) 0, .call .always (.v 4) 0),
    (.callx .always (.v 5) (.v 4), .callx .always (.v 4) (.v 4)),
    (.ret .always (.v 7), .ret .always (.v 6)),
    (.wait .always .ld 32, .wait .always .ld 31),
    (.bara .always (.v 1) (.v 2) 16, .bara .always (.v 1) (.v 2) 15),
    (.barw .always (.v 2) 16, .barw .always (.v 2) 15),
    (.bars .always (.v 2) 16, .bars .always (.v 2) 15),
    (.rput .always 8 0, .rput .always 7 15),
    (.rput .always 0 16, .rput .always 0 0),
    (.rget .always 8 0 true, .rget .always 7 15 false),
    (.rget .always 0 16 true, .rget .always 0 0 true),
    (.rrel .always 8 0, .rrel .always 7 15),
    (.rrel .always 0 16, .rrel .always 0 0),
    (.sread .always (.v 1) 20, .sread .always (.v 2) 20),
    (.sread .always (.v 2) 22, .sread .always (.v 2) 0),
    (.swrite .always 14 (.v 2), .swrite .always 15 (.v 1)),
    (.swrite .always 32 (.v 3), .swrite .always 32 (.v 2)),
    (.reggrow .always (.v 1) 0 false, .reggrow .always (.v 1) 1 false),
    (.reggrow .always (.v 1) 25 true, .reggrow .always (.v 1) 24 true),
    (.regshrink .always 0, .regshrink .always 1),
    (.regshrink .always 25, .regshrink .always 24),
    (.launch .always (.v 1) (.v 2), .launch .always (.v 0) (.v 2)),
    (.lwait .always (.v 1) (.v 3) true, .lwait .always (.v 1) (.v 2) true),
    (.trap .always 256, .trap .always 255),
    (.brk .always 256, .brk .always 0),
    (.tinfo .always (.v 1) 16, .tinfo .always (.v 1) 15),
    (.tlbinv .always (.v 1) (.v 1) true, .tlbinv .always (.v 2) (.v 1) true)] : List (Instr × Instr)), p.1.wf = false ∧ p.2.wf = true := by decide +kernel
theorem test_ill_formed_arithmetic : ∀ p ∈ ([(Instr.iadd .always (.v 1) (.v 2) (.win 8 0) .wrap, .iadd .always (.v 1) (.v 2) (.win 7 131071) .wrap),
    (.isub .always (.v 1) (.v 2) (.win 0 131072) .sat, .isub .always (.v 1) (.v 2) (.imm 5) .sat),
    (.iadd64 .always (.v 2) (.v 4) (.pair (.v 3)), .iadd64 .always (.v 2) (.v 4) (.imm 3)),
    (.isub64 .always (.v 2) (.v 4) (.win 8 0), .isub64 .always (.v 2) (.v 4) (.win 7 0)),
    (.imadw .always (.v 1) (.v 2) (.v 3) (.v 4) true, .imadw .always (.v 0) (.v 3) (.v 3) (.v 4) true),
    (.lea .always (.v 2) (.v 4) (.imm 1) 32 false, .lea .always (.v 2) (.v 4) (.imm 1) 31 false),
    (.isetp .always 48 (.v 1) (.imm 0) .eq false, .isetp .always 47 (.v 1) (.imm 0) .eq false),
    (.sel .always (.v 1) (.v 2) (.imm 0) 48, .sel .always (.v 1) (.v 2) (.imm 0) 47),
    (.plop3 .always 48 0 0 0, .plop3 .always 47 47 47 0),
    (.plop3 .always 0 48 0 0, .plop3 .always 0 0 0 255),
    (.plop3 .always 0 0 48 0, .plop3 .always 1 2 3 4),
    (.p2v .always (.v 1) 48, .p2v .always (.v 1) 47),
    (.v2p .always 48 (.v 1) false, .v2p .always 47 (.v 1) true),
    (.vote .always 0 48 .all, .vote .always 47 47 .eq),
    (.vote .always 48 0 .all, .vote .always 0 0 .any),
    (.pcnt .always (.v 1) 48, .pcnt .always (.v 1) 0),
    (.elect .always 48, .elect .always 47),
    (.match .always (.v 1) (.v 3) true, .match .always (.v 1) (.v 3) false),
    (.cvtif .always (.v 1) (.v 2) .rn false .f64 false, .cvtif .always (.v 1) (.v 2) .rn false .f32 false),
    (.cvtfi .always (.v 1) (.v 3) .rn false .f64 false, .cvtfi .always (.v 1) (.v 2) .rn false .f64 false),
    (.cvtff .always (.v 1) (.v 2) .rn .f64 .f32, .cvtff .always (.v 1) (.v 2) .rn .f32 .f64),
    (.cvtn .always (.v 1) (.v 2) (.imm 0) 8, .cvtn .always (.v 1) (.v 2) (.imm 0) 7),
    (.cvtw .always (.v 1) (.v 2) (.imm 0) 8, .cvtw .always (.v 1) (.v 2) (.imm 0) 7),
    (.scalq .always (.v 1) (.v 2) 8, .scalq .always (.v 1) (.v 2) 7),
    (.amax .always (.v 1) (.v 2) (.imm 0) false .f32, .amax .always (.v 1) (.v 2) (.win 7 0) false .f32),
    (.fadd .always (.v 1) (.v 2) (.imm 0) ⟨.rn, false, false, false, false⟩, .fadd .always (.v 1) (.v 2) (.reg (.v 3)) ⟨.rn, false, false, false, false⟩),
    (.fsub .always (.v 1) (.v 2) (.reg (.v 3)) ⟨.rn, false, false, false, true⟩, .ffma .always (.v 1) (.v 2) (.v 3) (.v 4) ⟨.rn, false, false, false, true⟩),
    (.fsetp .always 48 (.v 1) (.reg .z) .eq, .fsetp .always 47 (.v 1) (.reg .z) .eq),
    (.fscale .always (.v 1) (.v 2) (.win 8 0) .rn, .fscale .always (.v 1) (.v 2) (.imm 3) .rn),
    (.dadd .always (.v 2) (.v 4) (.imm 0) ⟨.rn, false, false, false, false⟩, .dadd .always (.v 2) (.v 4) (.pair .z) ⟨.rn, false, false, false, false⟩),
    (.dmul .always (.v 2) (.v 4) (.pair (.v 6)) ⟨.rn, false, false, false, true⟩, .dmul .always (.v 2) (.v 4) (.win 7 1) ⟨.rn, false, false, false, false⟩),
    (.dfma .always (.v 2) (.v 4) (.v 5) (.v 8) ⟨.rn, false, false, false, false⟩, .dfma .always (.v 2) (.v 4) (.v 6) (.v 8) ⟨.rn, false, false, false, true⟩)] : List (Instr × Instr)), p.1.wf = false ∧ p.2.wf = true := by decide +kernel
theorem test_ill_formed_memory : ∀ p ∈ ([(Instr.ld .always .sc .b128 (.v 2) (.v 1) 0, .ld .always .sc .b128 (.v 4) (.v 1) 0),
    (.ld .always .sc .b128 .z (.v 1) 0, .ld .always .sc .b64 .z (.v 1) 0),
    (.ld .always .gl .b32 (.v 2) (.v 1) 0, .ld .always .gl .b32 (.v 1) (.v 2) 0),
    (.st .always .sc .b32 true (.v 2) (.v 1) 0, .st .always .gl .b32 true (.v 1) (.v 2) 0),
    (.ldk .always (.v 1) (.v 2) 8 false, .ldk .always (.v 1) (.v 2) 7 false),
    (.ldk .always (.v 1) (.v 2) 0 true, .ldk .always (.v 2) (.v 1) 0 true),
    (.ldacq .always .ln .b32 .t (.v 2) (.v 1) 0, .ldacq .always .sc .b32 .t (.v 2) (.v 1) 0),
    (.ldacq .always .gl .b8 .t (.v 2) (.v 4) 0, .ldacq .always .gl .b64 .s (.v 2) (.v 4) 0),
    (.strel .always .gl .b32 .w (.v 2) (.v 4) 0, .strel .always .gl .b32 .p (.v 2) (.v 4) 0),
    (.atom .always .add ⟨.ln, false, .acq, .c⟩ (.v 1) (.v 2) (.v 3), .atom .always .add ⟨.gl, false, .acq, .c⟩ (.v 1) (.v 2) (.v 3)),
    (.atom .always .add ⟨.gl, false, .relaxed, .c⟩ (.v 1) (.v 2) (.v 3), .atom .always .add ⟨.gl, false, .relaxed, .t⟩ (.v 1) (.v 2) (.v 3)),
    (.atom .always .inc ⟨.gl, false, .acq, .c⟩ (.v 1) (.v 2) (.v 3), .atom .always .inc ⟨.gl, false, .acq, .c⟩ (.v 1) (.v 2) .z),
    (.atomc .always ⟨.gl, true, .ar, .w⟩ (.v 2) (.v 4) (.v 6) (.v 8), .atomc .always ⟨.gl, true, .ar, .s⟩ (.v 2) (.v 4) (.v 6) (.v 8)),
    (.atomc .always ⟨.gl, true, .ar, .s⟩ (.v 2) (.v 4) (.v 6) (.v 9), .atomc .always ⟨.gl, false, .ar, .s⟩ (.v 2) (.v 4) (.v 6) (.v 9)),
    (.red .always .exch ⟨.gl, false, .rel, .c⟩ (.v 2) (.v 3), .red .always .xor ⟨.gl, false, .rel, .c⟩ (.v 2) (.v 3)),
    (.red .always .add ⟨.gl, false, .acq, .c⟩ (.v 2) (.v 3), .red .always .add ⟨.gl, false, .relaxed, .t⟩ (.v 2) (.v 3)),
    (.cwb .always true (.v 3) (.v 1), .cwb .always true (.v 2) (.v 1)),
    (.cinv .always true (.h 3) (.v 1), .cinv .always true (.h 2) (.v 1)),
    (.cpf .always true (.v 3) 0, .cpf .always true (.v 2) 0),
    (.cpy .always .ln .sc (.v 1) (.v 2) (.v 3) 0, .cpy .always .gl .sc (.v 2) (.v 1) (.v 3) 0),
    (.cpyt .always .gl .sc (.v 2) (.v 1) .z 0, .cpyt .always .gl .sc (.v 2) (.v 1) (.v 765) 0),
    (.cpyx .always .gl .sc (.v 2) (.v 1) (.v 767) 0, .cpyx .always .gl .sc (.v 2) (.v 1) (.v 766) 0),
    (.cpyo .always .sc .ln (.v 2) (.v 1) (.v 3) 0, .cpyo .always .sc .cl (.v 2) (.v 1) .z 0),
    (.shopen .always (.v 1) (.v 2), .shopen .always (.v 2) (.v 1)),
    (.publish .always .w (.v 2) (.v 1), .publish .always .p (.v 2) (.v 1)),
    (.put .always .sc true (.v 2) (.v 1) (.v 767) 0, .put .always .sc false (.v 2) (.v 1) (.v 767) 0),
    (.get .always .sc true (.v 1) (.v 2) (.h 31) 0, .get .always .sc true (.v 1) (.v 2) (.h 30) 0),
    (.mcast .always (.v 2) (.v 767) (.v 1), .mcast .always (.v 2) (.v 766) (.v 1)),
    (.send .always 0 (.v 2) (.v 1) (.v 1), .send .always 1 (.v 2) (.v 1) (.v 1)),
    (.send .always 257 (.v 2) (.v 1) (.v 1), .send .always 256 (.v 2) (.v 1) (.v 1)),
    (.rpost .always 0 (.v 1) (.v 2) (.v 1) (.v 4), .rpost .always 1 (.v 1) (.v 2) (.v 1) (.v 4)),
    (.rpost .always 257 (.v 1) (.v 2) (.v 1) (.v 4), .rpost .always 256 (.v 1) (.v 2) (.v 1) (.v 4)),
    (.rpoll .always (.v 1) (.v 1), .rpoll .always (.v 2) (.v 1)),
    (.skmrg .always (.v 2) (.v 4) (some .w), .skmrg .always (.v 2) (.v 4) (some .t)),
    (.tarm .always (.v 1) (.v 1) (.v 3) (.v 2), .tarm .always (.v 1) (.v 1) (.v 4) (.v 2)),
    (.trd .always (.v 1) (.v 1), .trd .always (.v 2) (.v 1))] : List (Instr × Instr)), p.1.wf = false ∧ p.2.wf = true := by decide +kernel
theorem test_ill_formed_tile_and_sketch : ∀ p ∈ ([(Instr.mma .always 16 (.v 1) (.v 2) ⟨false, 0, 0, false⟩, .mma .always 15 (.v 1) (.v 2) ⟨false, 7, 7, false⟩),
    (.mmac .always 0 (.v 1) (.v 2) ⟨false, 8, 0, false⟩, .mmac .always 0 (.v 1) (.v 2) ⟨false, 0, 0, false⟩),
    (.mmas .always 0 (.v 1) (.v 2) (.v 3) ⟨false, 0, 8, false⟩, .mmas .always 0 (.v 1) (.v 2) (.v 3) ⟨false, 1, 2, false⟩),
    (.mzero .always 16, .mzero .always 15),
    (.mrd .always (.v 753) 0 0, .mrd .always (.v 752) 15 3),
    (.mrd .always (.v 0) 0 4, .mrd .always (.h 16) 0 0),
    (.mrd .always .z 0 0, .mrd .always (.v 0) 0 0),
    (.mwr .always 16 (.v 0) 0, .mwr .always 15 (.v 0) 0),
    (.mwr .always 0 (.h 17) 0, .mwr .always 0 (.h 16) 3),
    (.mld .always 16 (.v 1), .mld .always 15 (.v 1)),
    (.mst .always 0 true false 8 (.v 2), .mst .always 0 true false 7 (.v 2)),
    (.mst .always 0 true false 0 (.v 1), .mst .always 0 false false 0 (.v 1)),
    (.skins .always (.v 1) (.v 2) (.v 4) (.v 6) false, .skins .always (.v 1) (.v 2) (.v 4) (.v 6) true),
    (.skdel .always (.v 1) (.v 3) (.v 4) .z false, .skdel .always (.v 1) (.v 2) (.v 4) .z false),
    (.skhash .always (.v 2) (.v 760) (.v 4) 16, .skhash .always (.v 2) (.v 736) (.v 4) 16),
    (.skhash .always (.v 2) (.v 4) (.v 6) 0, .skhash .always (.v 2) (.v 4) (.v 6) 1),
    (.skhash .always (.v 2) (.v 4) (.v 6) 17, .skhash .always (.v 2) .z (.v 6) 1),
    (.skfold .always .w (.v 2), .skfold .always .s (.v 2)),
    (.skclr .always .w (.v 2), .skclr .always .t (.v 2)),
    (.skstat .always (.v 2) (.v 4) 8, .skstat .always (.v 2) (.v 4) 7),
    (.skinv .always (.v 1), .skinv .always (.v 2))] : List (Instr × Instr)), p.1.wf = false ∧ p.2.wf = true := by decide +kernel
theorem test_ill_formed_event : ∀ p ∈ ([(Instr.clauseDispatch 512, .clauseDispatch 511),
    (.laneComplete ⟨0, 64⟩ (0, 0), .laneComplete ⟨9, 63⟩ (0, 0)),
    (.instructionRetire ⟨0, 64⟩, .instructionRetire ⟨0, 63⟩),
    (.loadBind ⟨0, 64⟩ 0 1, .loadBind ⟨0, 63⟩ 0 1),
    (.tileOpExecute w0 16, .tileOpExecute w0 15),
    (.weigherUpdate w0 0 32, .weigherUpdate w0 0 31),
    (.l1WritebackTimer 512 0 0 0, .l1WritebackTimer 511 0 4095 3),
    (.l1WritebackTimer 0 0 4096 0, .l1WritebackTimer 0 0 0 0),
    (.overflowSignatureClear 128, .overflowSignatureClear 127),
    (.porterServe 128, .porterServe 127),
    (.cowTwinCopy 8 0, .cowTwinCopy 7 0),
    (.doorbell 64 0, .doorbell 63 0),
    (.teamPlace 8, .teamPlace 7),
    (.partitionEnable 8 0, .partitionEnable 7 0),
    (.preemptRequest 4096, .preemptRequest 4095),
    (.contextDefine 4096 0 0 0, .contextDefine 4095 0 0 0),
    (.pageServiceAnswer 8 0, .pageServiceAnswer 7 4095),
    (.pageServiceRefuse 0 4096, .pageServiceRefuse 0 0),
    (.correctedError ⟨0, 0, 0, none, 8, true, none, none⟩, .correctedError ⟨0, 0, 0, none, 7, true, none, none⟩),
    (.treeBreak 65536, .treeBreak 65535),
    (.linkTraining 8192 0 [1] 0, .linkTraining 8191 255 [1] 0),
    (.linkTraining 0 256 [1] 0, .linkTraining 0 0 [] 0),
    (.linkTraining 0 0 [1, 0] 0, .linkTraining 0 0 [1, 255] 0),
    (.write { packet .write with dfid := 8192 }, .write { packet .write with dfid := 8191 }),
    (.write { packet .write with sfid := 8192 }, .write { packet .write with sfid := 8191 }),
    (.write { packet .write with dinc := 256 }, .write { packet .write with dinc := 255 }),
    (.write { packet .write with sinc := 256 }, .write { packet .write with sinc := 255 }),
    (.write { packet .write with link := 16 }, .write { packet .write with link := 15 }),
    (.write { packet .write with addr := 2 ^ 48 }, .write { packet .write with addr := 2 ^ 48 - 1 }),
    (.write { packet .write with serial := 2 ^ 16 }, .write { packet .write with serial := 2 ^ 16 - 1 }),
    (.write { packet .write with data := List.replicate 481 (0, 0) }, .write { packet .write with data := List.replicate 480 (0, 0) }),
    (.write { packet .write with ctx := 4096 }, .write { packet .write with ctx := 4095 })] : List (Instr × Instr)), p.1.wf = false ∧ p.2.wf = true := by decide +kernel
/-! ### One step each: what the spec's rules and examples give -/

/-- The state after one step. -/
def next (s : State) : State :=
  match step s with
  | .next t => t
  | _ => State.reset
/-- The warp of a package after one step. -/
def after (s : State) : Warp := wx (next s)
/-- The word that an instruction leaves in a lane of v`n`, the last register of its destination. -/
def gives (i : Instr) (regs : AMap VReg) (n k : Nat) : Word := ((after (running i regs)).reg n).at k
/-- The predicate that an instruction leaves in p`n`. -/
def givesP (i : Instr) (regs : AMap VReg) (n : Nat) : Mask := amGet 0 (after (running i regs)).preds n

/-- Table 12-6, R257, R258. -/
theorem test_integer : ∀ p ∈ ([
    (Instr.iadd .always (.v 1) (.v 2) (.reg (.v 3)) .wrap, [(2, same 0xFFFFFFFF), (3, same 2)], 1),
    (.iadd .always (.v 1) (.v 2) (.reg (.v 3)) .sat, [(2, same 0x7FFFFFFF), (3, same 1)], 0x7FFFFFFF),
    (.isub .always (.v 1) (.v 2) (.reg (.v 3)) .usat, [(2, same 1), (3, same 2)], 0),
    (.imul .always (.v 1) (.v 2) (.reg (.v 3)), [(2, same 0x10001), (3, same 0x10001)], 0x20001),
    (.imulh .always (.v 1) (.v 2) (.reg (.v 3)) false, [(2, same 0xFFFFFFFF), (3, same 2)], 0xFFFFFFFF),
    (.imulh .always (.v 1) (.v 2) (.reg (.v 3)) true, [(2, same 0xFFFFFFFF), (3, same 2)], 1),
    (.imad .always (.v 1) (.v 2) (.v 3) (.v 1), [(1, same 5), (2, same 3), (3, same 4)], 17),
    (.imadw .always (.v 0) (.v 2) (.v 3) (.v 4) false, [(2, same 0xFFFFFFFF), (3, same 1), (4, same 1), (5, same 3)], 3),
    (.iadd64 .always (.v 0) (.v 2) (.imm 0xFFFFF), [(2, same 0), (3, same 7)], 6),
    (.isub64 .always (.v 0) (.v 2) (.pair (.v 4)), [(2, same 0), (3, same 7), (4, same 1), (5, same 2)], 4),
    (.imin .always (.v 1) (.v 2) (.reg (.v 3)) true, [(2, same 0xFFFFFFFF), (3, same 2)], 2),
    (.imax .always (.v 1) (.v 2) (.reg (.v 3)) false, [(2, same 0xFFFFFFFF), (3, same 2)], 2),
    (.iabs .always (.v 1) (.v 2) true, [(2, same 0x80000000)], 0x7FFFFFFF),
    (.ineg .always (.v 1) (.v 2) false, [(2, same 0x80000000)], 0x80000000),
    (.isat .always (.v 1) (.v 2) .i8, [(2, same 0xFFFFFF00)], 0xFFFFFF80),
    (.isat .always (.v 1) (.v 2) .n16, [(2, same 0x12345)], 0xFFFF),
    (.idiv .always (.v 1) (.v 2) (.reg (.v 3)) false, [(2, same 0xFFFFFFF9), (3, same 2)], 0xFFFFFFFD),
    (.irem .always (.v 1) (.v 2) (.reg (.v 3)) false, [(2, same 0xFFFFFFF9), (3, same 2)], 0xFFFFFFFF),
    (.idot4 .always (.v 1) (.v 2) (.v 3) (.v 4) false true, [(2, same 0xFF020304), (3, same 0xFF010101), (4, same 1)], 0xFFFFFF0B),
    (.idot2 .always (.v 1) (.v 2) (.v 3) (.v 4) false false, [(2, same 0xFFFF0002), (3, same 0x00030005), (4, same 1)], 8),
    (.lea .always (.v 0) (.v 2) (.reg (.v 4)) 31 true, [(2, same 0), (3, same 5), (4, same 0xFFFFFFFE)], 4)] : List (Instr × AMap VReg × Word)),
  gives p.1 p.2.1 1 31 = p.2.2 := by decide +kernel

/-- Table 12-6, R259, R261. -/
theorem test_bits : ∀ p ∈ ([
    (Instr.andn .always (.v 1) (.v 2) (.reg (.v 3)), [(2, same 0xFF), (3, same 0x0F)], 0xF0),
    (.not .always (.v 1) (.v 2) , [(2, same 0xF)], 0xFFFFFFF0),
    (.lop3 .always (.v 1) (.v 2) (.v 3) 0xCA, [(1, same 0xFFFF0000), (2, same 0x11111111), (3, same 0x22222222)], 0x22221111),
    (.lop3 .always (.v 1) (.v 2) (.v 3) 0x78, [(1, same 0xFF00FF00), (2, same 0xF0F0F0F0), (3, same 0xFFFF0000)], 0x0FF0FF00),
    (.shl .always (.v 1) (.v 2) (.reg (.v 3)), [(2, same 1), (3, same 32)], 0),
    (.shr .always (.v 1) (.v 2) (.reg (.v 3)), [(2, same 0x80000000), (3, same 31)], 1),
    (.sar .always (.v 1) (.v 2) (.reg (.v 3)), [(2, same 0x80000000), (3, same 99)], 0xFFFFFFFF),
    (.rotl .always (.v 1) (.v 2) (.reg (.v 3)), [(2, same 0x80000001), (3, same 33)], 3),
    (.funl .always (.v 1) (.v 2) (.v 3) (.v 4), [(2, same 0x12345678), (3, same 0x9ABCDEF0), (4, same 8)], 0x3456789A),
    (.funr .always (.v 1) (.v 2) (.v 3) (.v 4), [(2, same 0x12345678), (3, same 0x9ABCDEF0), (4, same 8)], 0x789ABCDE),
    (.popc .always (.v 1) (.v 2) , [(2, same 0xF000000F)], 8),
    (.clz .always (.v 1) (.v 2) , [(2, same 0)], 32),
    (.ctz .always (.v 1) (.v 2) , [(2, same 0x80000000)], 31),
    (.brev .always (.v 1) (.v 2) , [(2, same 0x00000003)], 0xC0000000),
    (.bfx .always (.v 1) (.v 2) (.reg (.v 3)) true, [(2, same 0x00000F00), (3, same 0x0408)], 0xFFFFFFFF),
    (.bfx .always (.v 1) (.v 2) (.reg (.v 3)) false, [(2, same 0x80000000), (3, same 0x3F1F)], 1),
    (.bfi .always (.v 1) (.v 2) (.v 3) (.v 4), [(2, same 0xFF), (3, same 0x0404), (4, same 0x12345600)], 0x123456F0),
    (.prmt .always (.v 1) (.v 2) (.v 3) (.v 4), [(2, same 0x33221180), (3, same 0x77665544), (4, same 0xFFFF8740)], 0xFF774480),
    (.sel .always (.v 1) (.v 2) (.reg (.v 3)) 5, [(2, same 1), (3, same 2)], 2),
    (.mov .always (.v 1) (.imm 0x80000), [], 0xFFF80000),
    (.movi .always (.v 1) 0xDEADBEEF, [], 0xDEADBEEF)] : List (Instr × AMap VReg × Word)),
  gives p.1 p.2.1 1 31 = p.2.2 := by decide +kernel

/-- Chapter 13: Tables 13-2 and 13-5, R270 to R289, with their examples; chapter 15. -/
theorem test_float : ∀ p ∈ ([
    (Instr.fadd .always (.v 1) (.v 2) (.reg (.v 3)) ⟨.rn, false, false, false, false⟩, [(2, same 0x3F800000), (3, same 0x40000000)], 0x40400000),
    (.fsub .always (.v 1) (.v 2) (.reg (.v 3)) ⟨.rd, false, false, false, false⟩, [(2, same 0x3F800000), (3, same 0x3F800000)], 0x80000000),
    (.fmul .always (.v 1) (.v 2) (.reg (.v 3)) ⟨.rn, false, false, false, false⟩, [(2, same 0xC0000000), (3, same 0x40400000)], 0xC0C00000),
    (.ffma .always (.v 1) (.v 2) (.v 3) (.v 4) ⟨.rn, false, false, false, false⟩, [(2, same 0x40000000), (3, same 0x40400000), (4, same 0x3F800000)], 0x40E00000),
    (.fmin .always (.v 1) (.v 2) (.reg (.v 3)), [(2, same 0xBF800000), (3, same 0x7FC00000)], 0xBF800000),
    (.fmax .always (.v 1) (.v 2) (.reg (.v 3)), [(2, same 0x80000000), (3, same 0)], 0),
    (.fclass .always (.v 1) (.v 2) , [(2, same 0x80000000)], 8),
    (.fclass .always (.v 1) (.v 2) , [(2, same 0x7F800001)], 256),
    (.frnd .always (.v 1) (.v 2) .rd, [(2, same 0xC0200000)], 0xC0400000),
    (.frnd .always (.v 1) (.v 2) .rn, [(2, same 0xC0200000)], 0xC0000000),
    (.frcp .always (.v 1) (.v 2) , [(2, same 0xFF800000)], 0x80000000),
    (.fsqrt .always (.v 1) (.v 2) .rn, [(2, same 0x40800000)], 0x40000000),
    (.fsqrt .always (.v 1) (.v 2) .rn, [(2, same 0xBF800000)], 0x7FC00000),
    (.fdiv .always (.v 1) (.v 2) (.reg (.v 3)) .rn, [(2, same 0x3F800000), (3, same 0x40400000)], 0x3EAAAAAB),
    (.fdiv .always (.v 1) (.v 2) (.reg (.v 3)) .rz, [(2, same 0x3F800000), (3, same 0x40400000)], 0x3EAAAAAA),
    (.fexpf .always (.v 1) (.v 2) , [(2, same 0x3F000000)], 0x3FB504F3),
    (.fexpf .always (.v 1) (.v 2) , [(2, same 0x35800000)], 0x3F800006),
    (.flogf .always (.v 1) (.v 2) , [(2, same 0x3F800000)], 0),
    (.fsin .always (.v 1) (.v 2) , [(2, same 0x40400000)], 0),
    (.fcos .always (.v 1) (.v 2) , [(2, same 0x40400000)], 0x3F800000),
    (.fscale .always (.v 1) (.v 2) (.imm 0xFFFFF) .rn, [(2, same 0x3F800000)], 0x3F000000),
    (.fexpo .always (.v 1) (.v 2) , [(2, same 0x00000001)], 0xFFFFFF6B),
    (.hadd2 .always (.v 1) (.v 2) (.reg (.v 3)) ⟨.rn, false, false⟩, [(2, same 0x3C003C00), (3, same 0x3C004000)], 0x40004200),
    (.hmul2 .always (.v 1) (.v 2) (.reg (.v 3)) ⟨.rn, false, false⟩, [(2, same 0x4000C000), (3, same 0x40003C00)], 0x4400C000),
    (.dadd .always (.v 0) (.v 2) (.pair (.v 4)) ⟨.rn, false, false, false, false⟩, [(3, same 0x3FF00000), (5, same 0x3FF00000)], 0x40000000),
    (.dmul .always (.v 0) (.v 2) (.pair (.v 4)) ⟨.rn, false, false, false, false⟩, [(3, same 0x40000000), (5, same 0x40080000)], 0x40180000),
    (.dfma .always (.v 0) (.v 2) (.v 4) (.v 6) ⟨.rn, false, false, false, false⟩, [(3, same 0x40000000), (5, same 0x40080000), (7, same 0x3FF00000)], 0x401C0000),
    (.cvtif .always (.v 1) (.v 2) .rn true .f32 false, [(2, same 0xFFFFFFFF)], 0x4F800000),
    (.cvtif .always (.v 1) (.v 2) .rz false .f32 false, [(2, same 0xFFFFFFFF)], 0xBF800000),
    (.cvtfi .always (.v 1) (.v 2) .rz false .f32 false, [(2, same 0xBFC00000)], 0xFFFFFFFF),
    (.cvtfi .always (.v 1) (.v 2) .rn true .f32 false, [(2, same 0xBF800000)], 0),
    (.cvtff .always (.v 1) (.v 2) .rn .f16 .f32, [(2, same 0x3F800000)], 0x3C00),
    (.cbdec .always (.v 0) (.v 2) .e4m3 false, [(2, same 0x0307)], 0x34343434),
    (.cbdec .always (.v 1) (.v 2) .e4m3 true, [(2, same 0x03070000)], 0x3434BABA)] : List (Instr × AMap VReg × Word)),
  gives p.1 p.2.1 1 31 = p.2.2 := by decide +kernel

/-- The round trip through E4M3 of chapter 13: its slot 3, its inputs and scale. -/
theorem test_slot_conversions :
    (let r := fun (i : Instr) (regs : AMap VReg) => wx (next ((running i regs).modGrid 0 fun g =>
       { g with record := g.record.take 0xB0 ++ leBytes 16 0x100050110 ++ g.record.drop 0xC0 }))
     ((r (.scalq .always (.v 1) (.v 2) 3) [(2, same 0x41F00000)]).reg 1).at 0 = 0x7C ∧
     ((r (.cvtn .always (.v 40) (.v 32) (.reg (.v 48)) 3) [(32, same 0x41F00000), (33, same 0x3DCCCCCD), (34, same 0xC3FA0000),
         (35, same 0x7FC00000), (48, same 0x7B)]).reg 40).at 0 = 0x7FFE3D7E ∧
     [32, 33, 34, 35].map (fun n => ((r (.cvtw .always (.v 32) (.v 40) (.reg (.v 48)) 3) [(40, same 0x7FFE3D7E), (48, same 0x7B)]).reg n).at 0) =
       [0x41E00000, 0x3DD00000, 0xC1E00000, 0x7FC00000]) := by decide +kernel

/-- Chapter 12: the `SCAN` example under a guard that leaves lanes 0, 2, 3 and 5; R262, R263 and R265 on a lane index. -/
theorem test_cross_lane :
    (∀ p ∈ [(Instr.scan (.pred 1 false) (.v 1) (.v 2) .add false, [5, 12, 13, 17]), (.scan (.pred 1 false) (.v 1) (.v 2) .add true, [0, 5, 12, 13]),
        (.redux (.pred 1 false) (.v 1) (.v 2) .add, [17, 17, 17, 17])],
      let s := onWarp (running p.1 [(2, { tag := .general, words := [5, 9, 7, 1, 9, 4] ++ List.replicate 26 9 })]) fun x => { x with preds := [(1, 0x2D)] }
      [0, 2, 3, 5].map (fun k => ((after s).reg 1).at k) = p.2 ∧ ((after s).reg 1).at 1 = 0) ∧
    (∀ p ∈ [(Instr.shfl .always (.v 1) (.v 2) (.imm 40) .idx, 8), (.shfl .always (.v 1) (.v 2) (.imm 4) .up, 27), (.shfl .always (.v 1) (.v 2) (.imm 4) .down, 31),
        (.shfl .always (.v 1) (.v 2) (.imm 3) .xor, 28), (.match .always (.v 1) (.v 2) false, 0x80000000), (.sread .always (.v 1) 0, 31),
        (.movu .always (.v 1) (.v 2), 0), (.bcast .always (.v 1) (.v 2) (.imm 9), 9)],
      ((after (running p.1 [(2, steps 0 1)])).reg 1).at 31 = p.2) ∧
    (∀ p ∈ [(Instr.vote .always 3 1 .all, 0), (.vote .always 3 1 .any, allLanes), (.elect .always 3, 1), (.plop3 .always 3 1 2 0x78, 0x2C),
        (.v2p .always 3 (.v 2) false, 0xFFFFFFFE), (.isetp .always 3 (.v 2) (.imm 30) .ge true, 0xC0000000)],
      amGet 0 (after (onWarp (running p.1 [(2, steps 0 1)]) fun x => { x with preds := [(1, 0x2D), (2, 0x0F), (3, 0x21)] })).preds 3 = p.2) := by decide +kernel

/-- Chapters 03, 05, 12: one step of a control instruction each. -/
theorem test_control :
    ((after (running (.bra .always 3) [])).fr.map fun e => (e.addr, e.mask)) = [(32, allLanes)] ∧
    (let x := after (running (.call (.pred 1 true) (.v 6) 3) [])
     (x.reg 6).at 0 = 16 ∧ x.fr.map (fun e => e.addr) = [32]) ∧
    (after (running (.exit .always) [])).status = .exited ∧
    (after (onCtx (running (.yield .always) []) fun c => { c with preq := true })).status = .yielded ∧
    (after (onCtx (running (.yield .always) []) fun c => { c with preq := false })).status = .running ∧
    (wx (next (running (.wait .always .ld 0) []))).window = [] ∧
    ((next (running (.bara .always (.v 7) (.v 8) 9) [(8, same 1)])).team? 0).any (fun t => t.bars[9]?.any fun b => b.phase == 1 && b.arr == 0) = true ∧
    ((next (running (.rput .always 0 3) [])).stage? 0 0 3).any (fun g => g.full) = true ∧
    ((after (running (.tagq .always (.v 5) (.v 2)) [(2, steps 3 4)])).reg 5).at 0 = 1 ∧
    (after (running (.regshrink .always 2) [])).g = 2 ∧
    (after (running (.reggrow .always (.v 3) 9 true) [])).g = 24 := by decide +kernel

/-- Chapter 23, "A fault worked through": lanes 5 and 9 of a gather misaligned. -/
theorem test_fault :
    let v : VReg := { tag := .general, words := (List.replicate 32 (0 : Word)).set 5 0x102 |>.set 9 0x206 }
    let s := onTeam (paged (running (.ld .always .sc .b32 (.v 12) (.v 22) 0) [(22, v)])) fun t => { t with thnd := 0x100 }
    let h := (after s).handler
    (h.any fun h => h.trec.code == 0x13 && h.trec.arg == 0 && h.trec.sub == 0 && h.trec.addrv && h.trec.lane == 5 && h.trec.insn == 0x807E030160000028 &&
      h.trec.mask == 0xFFFFFFFF && h.trec.resume == 0x220 && h.trec.live == 0xFFFFFFFF && h.trec.addr == 0x102) = true ∧
    (after s).status = .handler ∧ ((after s).loads.map fun l => l.need) = [0xFFFFFDDF] := by decide +kernel

/-- A step of an event. -/
def happens (s : State) (i : Instr) : State := next { s with agenda := [.event i] }

/-- Chapters 06, 08 and 14: a load binds the bytes of memory, lowest first; a store writes them; an atomic adds at the line's home
and binds the old value; the store of an instruction still in the window waits. -/
theorem test_memory :
    (let s := onWarp (poke (holding [loading 2 (access 0 (.mem 0x80100 0 0)) 1 0 true none] []) 0x100 [1, 2, 3, 4]) fun x => { x with pend := [(12, 2)], ctr := { x.ctr with ld := 1 } }
     let t := happens s (.loadBind w0 2 1)
     ((wx t).reg 12).at 0 = 0x04030201 ∧ ((wx t).reg 12).at 1 = 3 ∧ (wx t).loads = [] ∧ (wx t).ctr.ld = 0) ∧
    (let s := holding [] [{ storing 2 .plain (access 0 (.mem 0x80100 0 0)) 1 with accs := [{ acc := access 0 (.mem 0x80100 0 0), bytes := [(0, 5), (1, 6), (2, 7), (3, 8)], opnd := 0, cmp := 0 }] }]
     ((happens s (.storePerform w0 2 1)).l1Read 0 0x80100 0 0 4).1 = [5, 6, 7, 8]) ∧
    (let s := onWarp (poke (holding [loading 2 (access 0 (.mem 0x80100 0 0)) 1 0 true none] [storing 2 (.atom .add) (access 0 (.mem 0x80100 0 0)) 1]) 0x100 [255, 0, 0, 0]) fun x => { x with pend := [(12, 2)] }
     let t := happens s (.storePerform w0 2 1)
     ((wx t).reg 12).at 0 = 255 ∧ (t.homeRead 0x80100 0 0 4).1 = [1, 1, 0, 0]) := by decide +kernel

/-- Chapter 16: columns 16 to 31 of a tile read, in the active rows 0 and 2. -/
theorem test_tile_read :
    let s := onWarp (tiling (.mrd .always (.v 16) 3 1) 0 0) fun x => { x with
      tiles := (List.range 2048).map fun k => (2048 * 3 + k, BitVec.ofNat 32 k), pend := (List.range 16).map fun k => (16 + k, 0) }
    let t := happens s (.tileOpExecute w0 3)
    ((wx t).reg 16).at 2 = 64 * 2 + 16 ∧ ((wx t).reg 31).at 0 = 31 ∧ ((wx t).reg 16).at 1 = 0 := by decide +kernel

/-- Chapter 10: products of FP16 in one group and over two instructions; chapter 16: the sparse product, its B rows the numbers 0 to 63. -/
theorem test_products :
    let f := Slot.ofBytes (leBytes 16 1)
    mmaAccumulate f f false 0xEC003C006C00 0 [0x6C00, 0x3C00, 0x6C00] 0 0 0 = 0x3F800000 ∧
    mmaAccumulate f f false 0xEC00 0 [0x6C00] 0 0 (mmaAccumulate f f false 0x3C006C00 0 [0x6C00, 0x3C00] 0 0 0) = 0 ∧
    mmaAccumulate f f true (leNat ((List.replicate 32 [0x00, 0x3C]).flatten)) (leNat (List.replicate 4 [0x31, 0x75, 0xB9, 0xFD]).flatten)
      [0x0, 0x3C00, 0x4000, 0x4200, 0x4400, 0x4500, 0x4600, 0x4700, 0x4800, 0x4880, 0x4900, 0x4980, 0x4A00, 0x4A80,
        0x4B00, 0x4B80, 0x4C00, 0x4C40, 0x4C80, 0x4CC0, 0x4D00, 0x4D40, 0x4D80, 0x4DC0, 0x4E00, 0x4E40, 0x4E80,
        0x4EC0, 0x4F00, 0x4F40, 0x4F80, 0x4FC0, 0x5000, 0x5020, 0x5040, 0x5060, 0x5080, 0x50A0, 0x50C0, 0x50E0,
        0x5100, 0x5120, 0x5140, 0x5160, 0x5180, 0x51A0, 0x51C0, 0x51E0, 0x5200, 0x5220, 0x5240, 0x5260, 0x5280,
        0x52A0, 0x52C0, 0x52E0, 0x5300, 0x5320, 0x5340, 0x5360, 0x5380, 0x53A0, 0x53C0, 0x53E0] 0 0 0 = 0x44800000 := by decide +kernel

/-- Chapters 03, 22 and 25: doorbells, placement, contexts, partitions, keys, and a reset. -/
theorem test_device :
    (let t := happens (queued ring (fetchRecord 1)) (.doorbell 3 2)
     (t.queue 3).tail = 2 ∧ (t.queue 3).hostArr.length = 2 ∧ (t.queue 3).terr = false) ∧
    ((happens (queued ring (fetchRecord 1)) (.doorbell 3 17)).queue 3).terr = true ∧
    (let t := happens unplaced (.teamPlace 0)
     (t.team? 1).isSome ∧ (t.warp? ⟨1, 0⟩).any (fun x => x.fr.map (fun e => e.mask) == [allLanes]) = true) ∧
    (let t := happens (running (.nop .always) []) (.preemptRequest 1)
     (t.ctx 1).preq = true ∧ (t.team? 0).any (fun k => k.status == .yielding && k.deadline.isSome && k.pqdl == 65536) = true) ∧
    ((happens (linked' id) (.partitionEnable 1 0x8000000000030001)).part 1).stackMask = 3 ∧
    ((happens ((linked' id).setHost { (linked' id).host with kidx := 7, kdata := 99 }) .keyLoad).mem.keys = [(7, 99)]) ∧
    (happens (running (.nop .always) []) .packageReset).warps = [] ∧
    (happens State.reset (.linkTraining 5 6 [1] 3)).fab.fid = 5 ∧
    ((happens (linked' id) (.bar2Write 0x80100 [9])).homeRead 0x80100 0 0 1).1 = [9] := by decide +kernel

/-- Chapter 22: the example of the energy rule, a team that waits and is then admitted. -/
theorem test_energy :
    let p := fun (m n : Nat) => (unplaced.modPart 1 fun x => { x with
      en := true, ebud := 6000, emeter := m, eclass := [(3, 450)], charges := (List.range n).map fun k => { k := k, expiry := 9, mj := 500 } }).energyAdmits 1 3
    p 4100 3 = false ∧ p 4400 2 = true := by decide +kernel

end

end Sys2Proof.Tests
end

