-- ==== Sys2Proof/Proofs/TagQuery.lean ====
section
/-! SUPPORT. Reading a register after writing it, and `TAGQ` (R78, R251): what it returns to every register that it can be
encoded with, and the name outside Table 11-4 at which its statement fails. -/

namespace Sys2Proof.Machine

open State

variable {s : State} {w : WarpId} {x : Warp} {c : Cursor}

/-! ### Registers after a write -/

theorem Warp.reg_setReg_self (x : Warp) {n : Nat} (hn : n < 992) (r : VReg) : (x.setReg n r).reg n = r := by
  by_cases hv : n < 768
  · simp [Warp.setReg, Warp.reg, hv, amGet_amPut]
  · simp [Warp.setReg, Warp.reg, hv, hn, amGet_amPut]

/-- `vz` reads zero, uniform, whatever its warp holds (R425). -/
@[simp] theorem Warp.reg_vz (x : Warp) : x.reg 1023 = zeroReg := rfl

theorem VReg.at_lanes (t : Tag) (f : Nat → Word) {k : Nat} (hk : k < 32) : VReg.at ⟨t, lanes.map f⟩ k = f k := by
  have hl : lanes = List.range 32 := rfl
  simp [VReg.at, hl, hk]

/-- A full write gives the register its tag and the word of every lane (R72, R76). -/
theorem Warp.reg_writeReg_full (x : Warp) {n : Nat} (hn : n < 992) (t : Tag) (f : Nat → Word) :
    ((x.writeReg n allLanes t f).reg n).tag = t ∧ ∀ k < 32, ((x.writeReg n allLanes t f).reg n).at k = f k := by
  have hfull : (allLanes : Mask) ≠ 0 := by decide
  rw [Warp.writeReg, if_neg hfull, Warp.reg_setReg_self x hn, if_pos rfl]
  refine ⟨rfl, fun k hk => ?_⟩
  have hlane : allLanes.getLsbD k = true := (by decide : ∀ k < 32, allLanes.getLsbD k = true) k hk
  simp [VReg.at_lanes _ _ hk, hlane]

@[simp] theorem Warp.reg_withRegs (y z : Warp) (n : Nat) : (y.withRegs z).reg n = z.reg n := rfl

/-- A register write reaches the registers and what waits for them, and nothing that dispatch changes. -/
theorem Warp.writeReg_pushed (x : Warp) (c : Cursor) (i : Instr) (n : Nat) (m : Mask) (t : Tag) (f : Nat → Word) :
    (x.pushed c i).writeReg n m t f = (x.pushed c i).withRegs (x.writeReg n m t f) := by
  simp only [Warp.writeReg, Warp.setReg]
  split_ifs <;> rfl

/-! ### `TAGQ` -/

/-- Every run of registers of an instruction that passes the checks of R229 is legal (R228, R390). -/
theorem runLegal_of_dispatchCheck {slot : Nat → Slot} {hnd sys : Bool} {eng : Nat} {i : Instr}
    (h : dispatchCheck slot x hnd sys eng i = none) {r : Run} (hr : r ∈ readRuns slot i ++ writeRuns slot i) :
    runLegal hnd r = true := by
  by_contra hbad
  have hall : (readRuns slot i ++ writeRuns slot i).all (runLegal hnd) = false :=
    List.all_eq_false.2 ⟨r, hr, hbad⟩
  cases hc : classAllows eng (groupOf i) <;> simp [dispatchCheck, hall, hc] at h

/-- The checks of R229 leave to `TAGQ` the names up to h31 and that of `vz`. -/
theorem tagq_dest_of_legal {slot : Nat → Slot} {hnd sys : Bool} {eng : Nat} {g : Guard} {d a : Reg}
    (h : dispatchCheck slot x hnd sys eng (.tagq g d a) = none) : d.field < 992 ∨ d.field = 1023 := by
  have hrun : runLegal hnd (d.field, 1) = true := runLegal_of_dispatchCheck h (by simp [writeRuns, r1])
  simp only [runLegal, Bool.or_eq_true, Bool.and_eq_true, decide_eq_true_eq, beq_iff_eq] at hrun
  omega

/-- `TAGQ` retires, and of its warp the destination alone changes: by one write, under the active lanes. -/
theorem exec_tagq {g : Guard} {d a : Reg} (h : Oldest s w x c (.tagq g d a)) (hm : activeMask x c (.tagq g d a) ≠ 0) :
    exec (.tagq g d a) s = .next ((s.setWarp w ((x.past c s.clock).withRegs
      (x.writeReg d.field (activeMask x c (.tagq g d a)) .uniform fun _ => BitVec.ofNat 32 (x.reg a.field).tag.code))).endClause w) := by
  show issue .normal (.tagq g d a) (bodyTagq d a) s = _
  rw [issue_regs (s2 := s.dispatched w x c (.tagq g d a))
    (f := fun y => y.writeReg d.field (activeMask x c (.tagq g d a)) .uniform fun _ => BitVec.ofNat 32 (x.reg a.field).tag.code)
    h hm rfl (warp?_dispatched ..) (Warp.writeReg_pushed ..) (by simp [bodyTagq, withWarp, putReg])]
  simp [State.dispatched]

/-- What R78 says of `TAGQ`, for every destination that does not carry the field number of `vz`: the statement
`Obligations.TagQuery` with `d.field ≠ 1023` where that has `d ≠ .z`. -/
theorem tagq_returns_code {g : Guard} {d a : Reg} (h : Oldest s w x c (.tagq g d a))
    (hm : activeMask x c (.tagq g d a) = allLanes) (hd : d.field ≠ 1023) :
    ∃ y, exec (.tagq g d a) s = .next ((s.setWarp w y).endClause w) ∧ (y.reg d.field).tag = .uniform ∧
      ∀ k < 32, (y.reg d.field).at k = BitVec.ofNat 32 (x.reg a.field).tag.code := by
  have hn : d.field < 992 := (tagq_dest_of_legal h.legal).resolve_right hd
  refine ⟨_, exec_tagq h (by rw [hm]; decide), ?_⟩
  simpa only [Warp.reg_withRegs, hm] using Warp.reg_writeReg_full x hn _ _

/-! ### The name v1023

`Reg` is plain data, so v1023 is a value of it that differs from `vz` and has the same field number. No word decodes to it,
and `Reg.wf` excludes it; `Oldest` does not. -/

/-- `TAGQ v1023, v2`. -/
def tagqAlias : Instr := .tagq .always (.v 1023) (.v 2)

/-- The one clause position of the warp, before the word of `TAGQ vz, v2`. -/
def aliasCursor : Cursor :=
  { hdr := 0, pc := 8, last := 16, live := allLanes, rmask := allLanes, eng := 0, words := [(encode tagqAlias).getD 0] }

/-- A warp inside a clause whose v2 holds the lane numbers, affine. -/
def aliasWarp : Warp :=
  { Warp.start 0 0 0 24 0 0 { addr := 0, mask := 0, prio := 0, passes := 0, rejoin := false } with
    fr := [], cursor := some aliasCursor, port := some 0, regs := [(2, ⟨.affine, lanes.map (BitVec.ofNat 32)⟩)] }

/-- A package with that warp alone, whose turn it is. -/
def aliasState : State := (State.reset.placeWord ((encode tagqAlias).getD 0)).setWarp ⟨0, 0⟩ aliasWarp

/-- The hypotheses of `Obligations.TagQuery` hold of the name. -/
theorem oldest_tagqAlias : Oldest aliasState ⟨0, 0⟩ aliasWarp aliasCursor tagqAlias where
  cur := rfl
  warp := warp?_setWarp_self ..
  place := rfl
  free := by decide +kernel
  legal := by decide +kernel
  room := by decide +kernel
  alone := rfl
  ready := by decide +kernel

/-- Refutes O13: for `TAGQ v1023, v2` with v2 affine, `d ≠ .z` holds, yet the destination has the field of `vz`, which reads
0 after any write, where the statement asks for the code 1. Every other destination keeps it (`tagq_returns_code`). -/
theorem not_tagQuery : ¬ Obligations.TagQuery := by
  unfold Obligations.TagQuery
  intro h
  obtain ⟨y, -, -, hcode⟩ := h aliasState ⟨0, 0⟩ aliasWarp aliasCursor .always (.v 1023) (.v 2) oldest_tagqAlias
    (by decide) (by decide)
  have hone : (y.reg 1023).at 0 = 1 := hcode 0 (by decide)
  rw [Warp.reg_vz] at hone
  exact absurd hone (by decide)

end Sys2Proof.Machine
end

