-- ==== Sys2Proof/Proofs/SoftwareTraps.lean ====
section
/-! SUPPORT. `TRAP` and `BRK` (R254): the retirement of an instruction with no lane, the fault of one that counts nothing, and
the position that a plain `TRET` gives back. -/

namespace Sys2Proof.Machine

open State Claims

variable {s : State} {w : WarpId} {x : Warp} {c : Cursor} {i : Instr} {body : Body} {k : Kind}

/-! ### An instruction that counts nothing: dispatched with no lane, or reporting a fault -/

/-- Giving back the counts of an instruction that has none keeps the state as the dispatch left it. -/
theorem uncount_dispatched (ha : x.window = []) (hi : countersOf i = []) :
    (s.dispatched w x c i).uncount w i =
      s.setWarp w { x with seq := x.seq + 1, window := [entryAt x c i], cursor := some c.next } := by
  simp [State.uncount, State.dispatched, Warp.pushed, Counters.lower, ha, hi]

/-- With an empty active mask the oldest instruction retires without its body (R72). -/
theorem runHead_empty (hm : activeMask x c i = 0) :
    (s.dispatched w x c i).runHead w (entryAt x c i) body =
      (((s.dispatched w x c i).uncount w i).leave w).checkExit w := by
  have hm' : (entryAt x c i).mask &&& (x.pushed c i).guardMask (guardOf (entryAt x c i).instr) = activeMask x c i := rfl
  simp only [State.runHead, warp?_dispatched, hm', hm, if_true]
  rfl

/-- An instruction that counts nothing and has no lane active: the warp is past it, whatever its body. -/
theorem issue_empty (h : Oldest s w x c i) (hm : activeMask x c i = 0) (hi : countersOf i = []) :
    issue k i body s = .next ((s.setWarp w (x.past c s.clock)).endClause w) := by
  rw [issue_oldest h, runHead_empty hm, uncount_dispatched h.alone hi, State.leave, modWarp_setWarp,
    checkExit_eq (warp?_setWarp_self _ _ _) rfl]
  rfl

/-- Taking an exception puts the position of the fault in the place of the warp's own (R368, R371). -/
theorem takeTrap_setWarp_cursor (s : State) (w : WarpId) (x : Warp) (q : Option Cursor) (p : Pos) (t : Trap) :
    (s.setWarp w { x with cursor := q }).takeTrap w countersOf p t = (s.setWarp w x).takeTrap w countersOf p t := by
  simp only [State.takeTrap, warp?_setWarp_self, setWarp_setWarp]
  rfl

/-- An instruction that counts nothing and whose body reports a fault, having changed nothing. -/
theorem issue_trap {t : Trap} (h : Oldest s w x c i) (hm : activeMask x c i ≠ 0) (hi : countersOf i = [])
    (hb : body w (entryAt x c i) (activeMask x c i) (s.dispatched w x c i) = .trap (s.dispatched w x c i) t false) :
    issue k i body s = .next (trapsWith s w x c (activeMask x c i) t) := by
  have hx : { x with seq := x.seq + 1, window := [], cursor := some c.next } =
      { ({ x with seq := x.seq + 1 } : Warp) with cursor := some c.next } := by rw [← h.alone]
  rw [issue_oldest h, runHead_trap hm hb, uncount_dispatched h.alone hi, modWarp_setWarp]
  simp only [List.drop_one, List.tail_cons]
  rw [hx, takeTrap_setWarp_cursor]
  rfl

/-! ### `TRAP` and `BRK` -/

/-- The fault with a code that carries operand n and asks no lane to replay (R254). -/
def softwareTrap (code n : Nat) (m : Mask) : Trap :=
  { code := code, lanes := 0, lane := (lowest m).getD 0, addr := none, arg := n, sub := 0, aux := 0 }

theorem exec_trap {g : Guard} {n : Nat} (h : Oldest s w x c (.trap g n)) (hm : activeMask x c (.trap g n) ≠ 0) :
    exec (.trap g n) s = .next (trapsWith s w x c (activeMask x c (.trap g n))
      (softwareTrap 0x07 n (activeMask x c (.trap g n)))) :=
  issue_trap (body := bodyTrap n) h hm rfl rfl

theorem exec_brk {g : Guard} {n : Nat} (h : Oldest s w x c (.brk g n)) (hm : activeMask x c (.brk g n) ≠ 0) :
    exec (.brk g n) s = .next (trapsWith s w x c (activeMask x c (.brk g n))
      (softwareTrap 0x08 n (activeMask x c (.brk g n)))) :=
  issue_trap (body := bodyBrk n) h hm rfl rfl

/-- A plain `TRET` from the fault of an instruction gives back its position in the lanes of TRESUME (R373). -/
theorem resumed_plain {h : Handler} {c : Cursor} (hh : h.trec.hdr = false) (hc : h.fcur = some c) :
    resumed h false = (h.frozen, some { c with pc := h.trec.pc, live := h.trec.live, rmask := h.trec.resume }) := by
  simp [resumed, hh, hc]

/-- Settles O23: both traps count nothing and leave the window before the fault is taken, so with a lane active they come to
`issue_trap` and with none to `issue_empty`; the empty resume mask is what `resumed_plain` gives back. -/
theorem softwareTraps : Obligations.SoftwareTraps := by
  unfold Obligations.SoftwareTraps
  refine ⟨?_, fun h c hh hr hc => by rw [resumed_plain hh hc, hr]⟩
  rintro s w x c i n code ⟨g, ⟨rfl, rfl⟩ | ⟨rfl, rfl⟩⟩ ho
  · exact ⟨exec_trap ho, fun hm => issue_empty (body := bodyTrap n) ho hm rfl⟩
  · exact ⟨exec_brk ho, fun hm => issue_empty (body := bodyBrk n) ho hm rfl⟩

end Sys2Proof.Machine
end

