-- ==== Sys2Proof/Proofs/Division.lean ====
section
/-! SUPPORT. `IDIV` and `IREM` (R258): the lane quotient and remainder divide exactly, what the two instructions give to every
register that they can be encoded with, and the name outside Table 11-4 at which their statement fails. -/

namespace Sys2Proof.Machine

open State Claims

variable {s s2 s3 : State} {w : WarpId} {x : Warp} {c : Cursor} {i : Instr} {k : Kind}

/-! ### The quotient and the remainder of a lane -/

/-- What R258 says of a quotient and a remainder of two words. -/
structure DividesTo (u : Bool) (p q quo rem : Word) : Prop where
  byZero : q = 0 → quo = 0xFFFFFFFF#32 ∧ rem = p
  corner : u = false → p = 0x80000000#32 → q = 0xFFFFFFFF#32 → quo = 0x80000000#32 ∧ rem = 0
  exact : q ≠ 0 → ¬ (u = false ∧ p = 0x80000000#32 ∧ q = 0xFFFFFFFF#32) →
    rdInt u p = rdInt u quo * rdInt u q + rdInt u rem ∧ |rdInt u rem| < |rdInt u q|

theorem laneIdiv_unsigned {p q : Word} (hq : q ≠ 0) : laneIdiv true p q = p / q := by
  rw [laneIdiv, if_neg hq, if_pos rfl, BitVec.udiv_def]

theorem laneIrem_unsigned {p q : Word} (hq : q ≠ 0) : laneIrem true p q = p % q := by
  rw [laneIrem, if_neg hq, if_pos rfl, BitVec.umod_def]

theorem toInt_laneIdiv_signed {p q : Word} (hq : q ≠ 0) (hc : ¬ (p = 0x80000000#32 ∧ q = 0xFFFFFFFF#32)) :
    (laneIdiv false p q).toInt = p.toInt.tdiv q.toInt := by
  rw [← BitVec.toInt_sdiv_of_ne_or_ne p q (not_and_or.1 hc), BitVec.toInt_sdiv, laneIdiv, if_neg hq,
    if_neg Bool.false_ne_true, wordOf, BitVec.toInt_ofInt]

theorem toInt_laneIrem_signed {p q : Word} (hq : q ≠ 0) : (laneIrem false p q).toInt = p.toInt.tmod q.toInt := by
  rw [laneIrem, if_neg hq, if_neg Bool.false_ne_true, wordOf, ← BitVec.toInt_srem, BitVec.ofInt_toInt]

/-- A remainder with the sign of the dividend is smaller than the divisor. -/
theorem abs_tmod_lt (a : Int) {b : Int} (hb : b ≠ 0) : |a.tmod b| < |b| := by
  rw [Int.abs_eq_natAbs, Int.abs_eq_natAbs, Int.natAbs_tmod, Int.ofNat_lt]
  exact Nat.mod_lt _ (Int.natAbs_pos.2 hb)

theorem laneIdiv_exact {u : Bool} {p q : Word} (hq : q ≠ 0) (hc : ¬ (u = false ∧ p = 0x80000000#32 ∧ q = 0xFFFFFFFF#32)) :
    rdInt u p = rdInt u (laneIdiv u p q) * rdInt u q + rdInt u (laneIrem u p q) ∧
      |rdInt u (laneIrem u p q)| < |rdInt u q| := by
  cases u with
  | true =>
    have hpos : 0 < q.toNat := Nat.pos_of_ne_zero fun h => hq (BitVec.eq_of_toNat_eq h)
    simp only [rdInt, if_true, laneIdiv_unsigned hq, laneIrem_unsigned hq, BitVec.toNat_udiv, BitVec.toNat_umod, Nat.abs_cast]
    exact ⟨by exact_mod_cast (Nat.div_add_mod' p.toNat q.toNat).symm, by exact_mod_cast Nat.mod_lt _ hpos⟩
  | false =>
    have hne : q.toInt ≠ 0 := fun h => hq (BitVec.toInt_inj.1 h)
    simp only [rdInt, Bool.false_eq_true, if_false, toInt_laneIrem_signed hq,
      toInt_laneIdiv_signed hq fun h => hc ⟨rfl, h⟩]
    exact ⟨(Int.tdiv_mul_add_tmod _ _).symm, abs_tmod_lt _ hne⟩

theorem laneIdiv_dividesTo (u : Bool) (p q : Word) : DividesTo u p q (laneIdiv u p q) (laneIrem u p q) where
  byZero := by rintro rfl; simp [laneIdiv, laneIrem]
  corner := by rintro rfl rfl rfl; decide
  exact := laneIdiv_exact

/-! ### Instructions of a register and operand B -/

theorem evalB_pushed (s : State) (w : WarpId) (x : Warp) (c : Cursor) (i : Instr) (b : SrcB) :
    evalB s w (x.pushed c i) b = evalB s w x b := by cases b <;> rfl

/-- The register that `readB` finds for operand B of 32 bits is the one that it evaluates to. -/
theorem evalB_of_readB {b : SrcB} {v : VReg} (hop : opB i = some (.inl b)) (hn : noScale (s.slots w) i = false)
    (h : readB s w x i = (some [v], s2)) : evalB s w x b = (.ok v, s2) := by
  simp only [readB, hop, hn, Bool.false_eq_true, if_false] at h
  rcases hb : evalB s w x b with ⟨_ | _ | _ | _, t⟩ <;> simp_all

/-- An instruction of a register and operand B retires, and writes its destination in the active lanes. -/
theorem issue_body2 {d a : Reg} {b : SrcB} {tag : VReg → VReg → Tag} {f : Word → Word → Word} {v : VReg}
    (h : Oldest s w x c i) (hm : activeMask x c i ≠ 0) (hi : countersOf i = [])
    (hb : evalB (s.dispatched w x c i) w x b = (.ok v, s2)) :
    issue k i (body2 d a b tag f) s = .next ((s2.setWarp w ((x.past c s.clock).withRegs
      (x.writeReg d.field (activeMask x c i) (tag (x.reg a.field) v) fun j => f (x.rd a j) (v.at j)))).endClause w) := by
  have honly : OnlyMem (s.dispatched w x c i) s2 := by simpa only [hb] using evalB_only (s.dispatched w x c i) w x b
  have hw : s2.warp? w = some (x.pushed c i) := (honly.warp? w).trans (warp?_dispatched ..)
  have hclock : s2.clock = s.clock := honly.clock
  rw [← hclock]
  exact issue_regs (f := fun y => y.writeReg d.field (activeMask x c i) (tag (x.reg a.field) v) fun j => f (x.rd a j) (v.at j))
    h hm hi hw (Warp.writeReg_pushed ..) (by simp [body2, withWarp, evalB_pushed, hb, putReg, Warp.rd])

/-- A write under a mask gives each lane of the mask its word (R72). -/
theorem Warp.at_reg_writeReg (x : Warp) {n : Nat} (hn : n < 992) {m : Mask} (t : Tag) (f : Nat → Word) {j : Nat} (hj : j < 32)
    (hm : m.getLsbD j = true) : ((x.writeReg n m t f).reg n).at j = f j := by
  have hne : m ≠ 0 := by rintro rfl; simp at hm
  rw [Warp.writeReg, if_neg hne, Warp.reg_setReg_self x hn, VReg.at_lanes _ _ hj, if_pos hm]

/-- The checks of R229 leave to a run of one register the names up to h31 and that of `vz`. -/
theorem single_of_dispatchCheck {slot : Nat → Slot} {hnd sys : Bool} {eng n : Nat}
    (h : dispatchCheck slot x hnd sys eng i = none) (hr : (n, 1) ∈ readRuns slot i ++ writeRuns slot i) :
    n < 992 ∨ n = 1023 := by
  have hrun := runLegal_of_dispatchCheck h hr
  simp only [runLegal, Bool.or_eq_true, Bool.and_eq_true, decide_eq_true_eq, beq_iff_eq] at hrun
  omega

/-! ### `IDIV` and `IREM` -/

theorem exec_idiv {g : Guard} {d a : Reg} {b : SrcB} {u : Bool} {v : VReg} (h : Oldest s w x c (.idiv g d a b u))
    (hm : activeMask x c (.idiv g d a b u) ≠ 0)
    (hb : readB (s.dispatched w x c (.idiv g d a b u)) w x (.idiv g d a b u) = (some [v], s2)) :
    exec (.idiv g d a b u) s = .next ((s2.setWarp w ((x.past c s.clock).withRegs
      (x.writeReg d.field (activeMask x c (.idiv g d a b u)) (tag2 (x.reg a.field) v) fun j =>
        laneIdiv u (x.rd a j) (v.at j)))).endClause w) :=
  issue_body2 h hm rfl (evalB_of_readB rfl rfl hb)

theorem exec_irem {g : Guard} {d a : Reg} {b : SrcB} {u : Bool} {v : VReg} (h : Oldest s w x c (.irem g d a b u))
    (hm : activeMask x c (.irem g d a b u) ≠ 0)
    (hb : readB (s.dispatched w x c (.irem g d a b u)) w x (.irem g d a b u) = (some [v], s2)) :
    exec (.irem g d a b u) s = .next ((s2.setWarp w ((x.past c s.clock).withRegs
      (x.writeReg d.field (activeMask x c (.irem g d a b u)) (tag2 (x.reg a.field) v) fun j =>
        laneIrem u (x.rd a j) (v.at j)))).endClause w) :=
  issue_body2 h hm rfl (evalB_of_readB rfl rfl hb)

/-- What R258 says of `IDIV` and `IREM`, for every destination that does not carry the field number of `vz`: the statement
`Obligations.DivisionResults` with `d.field ≠ 1023` where that has `d ≠ .z`. -/
theorem division_dividesTo {g : Guard} {d a : Reg} {b : SrcB} {u : Bool} {v : VReg}
    (hi : Oldest s w x c (.idiv g d a b u)) (hj : Oldest s w x c (.irem g d a b u))
    (hm : activeMask x c (.idiv g d a b u) ≠ 0) (hd : d.field ≠ 1023)
    (hbi : readB (s.dispatched w x c (.idiv g d a b u)) w x (.idiv g d a b u) = (some [v], s2))
    (hbj : readB (s.dispatched w x c (.irem g d a b u)) w x (.irem g d a b u) = (some [v], s3)) :
    ∃ y z, exec (.idiv g d a b u) s = .next ((s2.setWarp w y).endClause w) ∧
      exec (.irem g d a b u) s = .next ((s3.setWarp w z).endClause w) ∧
      ∀ k < 32, (activeMask x c (.idiv g d a b u)).getLsbD k = true →
        DividesTo u (x.rd a k) (v.at k) ((y.reg d.field).at k) ((z.reg d.field).at k) := by
  have hn : d.field < 992 := (single_of_dispatchCheck hi.legal (by simp [writeRuns, r1])).resolve_right hd
  refine ⟨_, _, exec_idiv hi hm hbi, exec_irem hj hm hbj, fun k hk hlane => ?_⟩
  rw [Warp.reg_withRegs, Warp.reg_withRegs, Warp.at_reg_writeReg x hn _ _ hk hlane,
    Warp.at_reg_writeReg x hn _ _ hk (show (activeMask x c (.irem g d a b u)).getLsbD k = true from hlane)]
  exact laneIdiv_dividesTo ..

/-! ### The name v1023 as a destination -/

/-- `IDIV v1023, v2, 0`, which no word decodes to. -/
def idivAlias : Instr := .idiv .always (.v 1023) (.v 2) (.imm 0) false

/-- `IREM v1023, v2, 0`, which no word decodes to. -/
def iremAlias : Instr := .irem .always (.v 1023) (.v 2) (.imm 0) false

theorem oldest_idivAlias : Oldest aliasState ⟨0, 0⟩ aliasWarp aliasCursor idivAlias where
  toActing := { oldest_tagqAlias.toActing with legal := by decide +kernel, room := by decide +kernel }
  alone := rfl
  ready := by decide +kernel

theorem oldest_iremAlias : Oldest aliasState ⟨0, 0⟩ aliasWarp aliasCursor iremAlias where
  toActing := { oldest_tagqAlias.toActing with legal := by decide +kernel, room := by decide +kernel }
  alone := rfl
  ready := by decide +kernel

/-- Refutes O12: for `IDIV v1023, v2, 0`, `d ≠ .z` holds, yet the destination has the field of `vz`, which reads 0 after any
write, where the statement asks for 0xFFFF_FFFF. Every other destination keeps it (`division_dividesTo`). -/
theorem not_divisionResults : ¬ Obligations.DivisionResults := by
  unfold Obligations.DivisionResults
  intro h
  obtain ⟨y, _, -, -, hlanes⟩ := h aliasState _ _ ⟨0, 0⟩ aliasWarp aliasCursor .always (.v 1023) (.v 2) (.imm 0) false
    (uniformReg (immWord 0)) oldest_idivAlias oldest_iremAlias (by decide) (by decide) rfl rfl
  obtain ⟨hzero, -, -⟩ := hlanes 0 (by decide) (by decide)
  have hones : (y.reg 1023).at 0 = 0xFFFFFFFF#32 := (hzero (by decide)).1
  rw [Warp.reg_vz] at hones
  exact absurd hones (by decide)

end Sys2Proof.Machine
end
